-- ==== Sys2Proof/Word.lean ====
section
/-!
DEFINITION. The plain types of the RHT03 engine: the byte of the wire format and of the dispatch word, the level of
the single line, and the phases and errors the spec names.
-/
namespace Sys2Proof

/-- One byte: a byte of the RawFrame (10_state.md R23), or the byte that carries a dispatch word (log entry 3). -/
abbrev Byte := BitVec 8

/-- The level of the line in one cycle: LOW = 0, HIGH = 1 (00_scope.md R9, 20_memory.md R52). -/
inductive Level where
  /-- LOW = 0: some party drives the line. -/
  | low
  /-- HIGH = 1: nobody drives the line and the pull-up holds it. -/
  | high
  deriving DecidableEq, Repr

/-- The nine phases of the engine (30_encoding.md R70). -/
inductive Phase where
  | idle | start | settle | resp | cal | fstart | bitrise | bithigh | validate
  deriving DecidableEq, Repr

/-- The source's error taxonomy (60_exceptions.md R201). `registerMap` has a reserved code and is never raised (R203). -/
inductive BlockError where
  | registerMap
  | busBusy
  | responseTimeout
  | calibrationTimeout
  | frameStartTimeout
  | bitTimeout (byteIndex bitIndex : BitVec 3)
  | checksumMismatch
  deriving DecidableEq, Repr

end Sys2Proof
end

