-- ==== Sys2Proof/Config.lean ====
section
/-!
DEFINITION. What a build fixes (00_scope.md R6) and what the world outside the block supplies in each cycle
(20_memory.md R52, 10_state.md R28).

Every constant here is a name without a value: no proof can see what it is, so what is proved holds for every value.
-/
namespace Sys2Proof

/-- The implementation parameters of 00_scope.md R6, in the rule's order. -/
structure Build where
  /-- `CLK_HZ`: the frequency of `clk` in Hz. No state rule reads it. -/
  clkHz : Nat
  /-- `TIMEOUT`: the iteration ceiling of every bounded wait, in polls. -/
  timeout : Nat
  /-- `START_HOLD`: the cycles the start pulse drives the line LOW. -/
  startHold : Nat
  /-- `RELEASE_SETTLE`: the cycles after release in which samples are ignored. -/
  releaseSettle : Nat
  /-- `SYNC_STAGES`: the flip-flops of the line input synchronizer. -/
  syncStages : Nat
  /-- `CW`: the width in bits of `cnt` and of `thr`. -/
  cw : Nat
  deriving DecidableEq, Repr

/-- `CLK_HZ` of the chip at hand: OPEN (92_eei_decisions.md D7), see log entry 1. -/
opaque Config.clkHz : Nat
/-- `TIMEOUT` of the chip at hand: OPEN (92_eei_decisions.md D6), see log entry 1. -/
opaque Config.timeout : Nat
/-- `START_HOLD` of the chip at hand: OPEN (92_eei_decisions.md D7), see log entry 1. -/
opaque Config.startHold : Nat
/-- `RELEASE_SETTLE` of the chip at hand: OPEN (92_eei_decisions.md D5), see log entry 1. -/
opaque Config.releaseSettle : Nat
/-- `SYNC_STAGES` of the chip at hand: OPEN (92_eei_decisions.md D4), see log entry 1. -/
opaque Config.syncStages : Nat
/-- `CW` of the chip at hand: a width the build chooses, bounded below only (00_scope.md R6), see log entry 1. -/
opaque Config.cw : Nat

/-- The parameters of the chip at hand, collected. -/
def Config.build : Build where
  clkHz := Config.clkHz
  timeout := Config.timeout
  startHold := Config.startHold
  releaseSettle := Config.releaseSettle
  syncStages := Config.syncStages
  cw := Config.cw

/-- The level of the `rst` port in cycle `n`, where no input of that cycle is listed: a free input (log entry 2). -/
opaque Config.freeRst : Nat → Bool
/-- The level of the `start` port in cycle `n`, where no input of that cycle is listed: a free input (log entry 2). -/
opaque Config.freeStart : Nat → Bool
/-- `sensor_level` in cycle `n` is HIGH, where no input of that cycle is listed: a free input under no law
(20_memory.md R52, log entry 2). -/
opaque Config.freeSensorHigh : Nat → Bool

/-- The number of bits that write `v` in binary, `bitlen(0) = 1` (00_scope.md R6). -/
def bitlen (v : Nat) : Nat := if v = 0 then 1 else v.log2 + 1

/-- The largest value a state rule writes to `cnt`: `max(TIMEOUT, START_HOLD − 1, RELEASE_SETTLE − 1)`
(00_scope.md R6). A negative term of the maximum counts as 0. -/
def Build.maxCount (b : Build) : Nat := max b.timeout (max (b.startHold - 1) (b.releaseSettle - 1))

/-- The two constraints of 00_scope.md R6 that keep the counters exact: `START_HOLD ≥ 1`, and the bound on `CW`. -/
abbrev Build.fits (b : Build) : Prop := 1 ≤ b.startHold ∧ bitlen b.maxCount ≤ b.cw

/-- Every constraint of 00_scope.md R6. `START_HOLD ≥ ceil(500e-6 × CLK_HZ)` is written over the naturals:
500e-6 = 1/2000. The board's rise time of 70_reset_and_hazards.md R250 is no parameter (log entry 12). -/
abbrev Build.legal (b : Build) : Prop :=
  0 < b.clkHz ∧ 1 ≤ b.timeout ∧ b.fits ∧ b.clkHz ≤ 2000 * b.startHold ∧ b.syncStages ≤ b.releaseSettle

end Sys2Proof
end

