-- ==== Sys2Proof/Syntax.lean ====
section
/-!
DEFINITION. The engine's instructions: one constructor per row of spec/opcode_table.json. The block has no instruction
set; its opcode in a cycle is the state register `st`, with `start` telling the two rows of code 0 apart
(30_encoding.md R70, R79).
-/
namespace Sys2Proof

/-- What one cycle with `rst` = 0 runs (30_encoding.md R70, R72, R79). -/
inductive Instr where
  /-- `IDLE`: code 0 with `start` = 0. -/
  | idle
  /-- `START_REQ`: code 0 with `start` = 1, the host's read request (30_encoding.md R75). -/
  | startReq
  /-- `START`: code 1, the start pulse. -/
  | start
  /-- `SETTLE`: code 2, release and settle. -/
  | settle
  /-- `RESP`: code 3, await the response falling edge. -/
  | resp
  /-- `CAL`: code 4, measure the reference pulse. -/
  | cal
  /-- `FSTART`: code 5, await the falling edge that starts the data. -/
  | fstart
  /-- `BITRISE`: code 6, await a bit's rising edge. -/
  | bitrise
  /-- `BITHIGH`: code 7, count a bit's HIGH pulse. -/
  | bithigh
  /-- `VALIDATE`: code 8, check the frame and publish the Reading. -/
  | validate
  /-- `UNUSED_9`: code 9, no phase (30_encoding.md R72). -/
  | unused9
  /-- `UNUSED_A_B`: codes 10 and 11, `101x`; the whole code is kept. -/
  | unusedAB (code : BitVec 4)
  /-- `UNUSED_C_F`: codes 12 to 15, `11xx`; the whole code is kept. -/
  | unusedCF (code : BitVec 4)
  deriving DecidableEq, Repr

end Sys2Proof
end

