-- ==== Sys2Proof/WellFormed.lean ====
section
/-!
DEFINITION. Which instruction terms the encoding has: a reserved row's kept code lies under the row's mask and match
(spec/opcode_table.json, 30_encoding.md R79).
-/
namespace Sys2Proof

/-- A code of the row `UNUSED_A_B`: match 0xA under mask 0xE. -/
def isCodeAB (code : BitVec 4) : Bool := (code &&& 0xE#4) == 0xA#4

/-- A code of the row `UNUSED_C_F`: match 0xC under mask 0xC. -/
def isCodeCF (code : BitVec 4) : Bool := (code &&& 0xC#4) == 0xC#4

/-- The instruction is one that some value of (`st`, `start`) selects. -/
def Instr.wf : Instr → Bool
  | .idle | .startReq | .start | .settle | .resp | .cal | .fstart | .bitrise | .bithigh | .validate | .unused9 => true
  | .unusedAB code => isCodeAB code
  | .unusedCF code => isCodeCF code

end Sys2Proof
end

