-- ==== Sys2Proof/Decode.lean ====
section
/-!
DEFINITION. Encodings (30_encoding.md): the phases' codes, the rows of the opcode table, the decoder and the encoder.

The spec dispatches on the pair (`start`, `st`) and gives it no byte form. The model's dispatch word is one byte,
`{0b000, start, st}`; log entry 3 says so.
-/
namespace Sys2Proof

/-- The 4-bit code of a phase (30_encoding.md R70). -/
def Phase.code : Phase → BitVec 4
  | .idle => 0
  | .start => 1
  | .settle => 2
  | .resp => 3
  | .cal => 4
  | .fstart => 5
  | .bitrise => 6
  | .bithigh => 7
  | .validate => 8

/-- The instruction a cycle runs, from `start` and `st`: total (30_encoding.md R79). `start` is looked at in code 0
only (30_encoding.md R75). -/
def decodeState (start : Bool) (st : BitVec 4) : Instr :=
  match st.toNat with
  | 0 => if start then .startReq else .idle
  | 1 => .start
  | 2 => .settle
  | 3 => .resp
  | 4 => .cal
  | 5 => .fstart
  | 6 => .bitrise
  | 7 => .bithigh
  | 8 => .validate
  | 9 => .unused9
  | 10 => .unusedAB st
  | 11 => .unusedAB st
  | _ => .unusedCF st

/-- The dispatch word `{0b000, start, st}` (log entry 3). -/
def dispatchWord (start : Bool) (st : BitVec 4) : Byte := 0#3 ++ BitVec.ofBool start ++ st

/-- Why bytes hold no dispatch word. -/
inductive DecodeError where
  /-- There is no byte at all. -/
  | noByte
  /-- Bits 7 to 5 of the byte are not zero: no value of (`start`, `st`) has that word. -/
  | reservedBits
  deriving DecidableEq, Repr

/-- Reads one dispatch word from the front of `bytes` and answers the instruction and the bytes after it. -/
def decode (bytes : List Byte) : Except DecodeError (Instr × List Byte) :=
  match bytes with
  | [] => .error .noByte
  | b :: rest =>
    if b.extractLsb' 5 3 = 0#3 then .ok (decodeState (b.getLsbD 4) (b.extractLsb' 0 4), rest)
    else .error .reservedBits

/-- One row of spec/opcode_table.json of format `fsm_state` or `reserved_state`: its mnemonic, and its mask and match
over `st`. -/
structure StateRow where
  mnemonic : String
  mask : BitVec 4
  pattern : BitVec 4

/-- The nine `fsm_state` rows and the three `reserved_state` rows of spec/opcode_table.json, in its order. The row
`START_REQ` (format `host_request`) shares the code of `IDLE` (30_encoding.md R79). -/
def stateRows : List StateRow :=
  [⟨"IDLE", 0xF, 0x0⟩, ⟨"START", 0xF, 0x1⟩, ⟨"SETTLE", 0xF, 0x2⟩, ⟨"RESP", 0xF, 0x3⟩, ⟨"CAL", 0xF, 0x4⟩,
   ⟨"FSTART", 0xF, 0x5⟩, ⟨"BITRISE", 0xF, 0x6⟩, ⟨"BITHIGH", 0xF, 0x7⟩, ⟨"VALIDATE", 0xF, 0x8⟩,
   ⟨"UNUSED_9", 0xF, 0x9⟩, ⟨"UNUSED_A_B", 0xE, 0xA⟩, ⟨"UNUSED_C_F", 0xC, 0xC⟩]

/-- The row matches the code: `st` under the mask is the match (30_encoding.md R79). -/
def StateRow.matchesCode (r : StateRow) (st : BitVec 4) : Bool := (st &&& r.mask) == r.pattern

/-- The mnemonic of the instruction's row in spec/opcode_table.json. -/
def Instr.mnemonic : Instr → String
  | .idle => "IDLE"
  | .startReq => "START_REQ"
  | .start => "START"
  | .settle => "SETTLE"
  | .resp => "RESP"
  | .cal => "CAL"
  | .fstart => "FSTART"
  | .bitrise => "BITRISE"
  | .bithigh => "BITHIGH"
  | .validate => "VALIDATE"
  | .unused9 => "UNUSED_9"
  | .unusedAB _ => "UNUSED_A_B"
  | .unusedCF _ => "UNUSED_C_F"

/-- The dispatch word of an instruction, from the table's `match` values; only the host's request has `start` = 1, and
a reserved row writes its kept code. -/
def encodeWord : Instr → Byte
  | .idle => 0x00
  | .startReq => 0x10
  | .start => 0x01
  | .settle => 0x02
  | .resp => 0x03
  | .cal => 0x04
  | .fstart => 0x05
  | .bitrise => 0x06
  | .bithigh => 0x07
  | .validate => 0x08
  | .unused9 => 0x09
  | .unusedAB code => code.setWidth 8
  | .unusedCF code => code.setWidth 8

/-- The bytes of an instruction: its one dispatch word. -/
def encode (i : Instr) : List Byte := [encodeWord i]

/-- The first `nbits` bits of `w` as bytes, bits 7 to 0 first. A word of no whole byte still has the dispatch word's
byte (the bits above `nbits` are 0). -/
def tableBytes (nbits w : Nat) : List Byte :=
  (List.range (max 1 ((nbits + 7) / 8))).map fun k => BitVec.ofNat 8 (w >>> (8 * k))

/-- The instruction the decoder reads from a table word. The rows `IDLE` and `START_REQ` have one table word, 0, and the
decoder reads `start` = 0 from it; `START_REQ` is the word 0x10 (log entry 3). Bytes after the dispatch word must be
zero. -/
def decodeTableWord (nbits w : Nat) : Option Instr :=
  match decode (tableBytes nbits w) with
  | .ok (i, rest) => if rest.all (· == 0#8) then some i else none
  | .error _ => none

end Sys2Proof
end

