-- ==== Sys2Proof/Machine/State.lean ====
section
/-!
DEFINITION. The state of the RHT03 engine: every register of 10_state.md R21, R22 and R24, and the three fields by which
a step that takes a state alone gets the parameters and the inputs of its cycle (10_state.md R28, log entries 1 and 2).
-/
namespace Sys2Proof.Machine

/-- The input ports in one cycle (10_state.md R26). `line_in` is not listed: it is the level of the line, which the
block's own drive decides together with the sensor (20_memory.md R52). -/
structure Inputs where
  /-- `rst`: synchronous reset, active high. -/
  rst : Bool
  /-- `start`: the host's read request. -/
  start : Bool
  /-- The sensor's contribution to the line: LOW if it drives, HIGH if it releases. -/
  sensor : Level
  deriving DecidableEq, Repr

/-- The output ports in one cycle (10_state.md R26). -/
structure Outputs where
  lineOe : Bool
  lineOut : BitVec 1
  busy : Bool
  done : Bool
  ok : Bool
  errCode : BitVec 3
  errByte : BitVec 3
  errBit : BitVec 3
  humidity : BitVec 16
  temperature : BitVec 16
  rdValid : Bool
  deriving DecidableEq, Repr

/-- The whole machine. `cnt` and `thr` are CW bits wide; they are numbers here, and every write keeps the low CW bits
(log entry 5). The other registers have the spec's widths. -/
structure State where
  /-- `st`: the state register, the analogue of a program counter (10_state.md R21). -/
  st : BitVec 4
  /-- `cnt`: the poll counter and the hold timer (10_state.md R22). -/
  cnt : Nat
  /-- `thr`: the threshold of the attempt (10_state.md R22). -/
  thr : Nat
  /-- `idx`: the bit counter, byte_index in bits 5 to 3 and bit_index in bits 2 to 0 (10_state.md R22). -/
  idx : BitVec 6
  /-- `frame`: the 40-bit shift register (10_state.md R22, R23). -/
  frame : BitVec 40
  /-- `sync[0..SYNC_STAGES−1]`: the input synchronizer, stage 0 first (20_memory.md R53). -/
  sync : List Level
  /-- `hum_q`: humidity in tenths of a percent, unsigned (10_state.md R24). -/
  humQ : BitVec 16
  /-- `temp_q`: temperature in tenths of a degree, two's complement (10_state.md R24). -/
  tempQ : BitVec 16
  /-- `rd_valid_q` (10_state.md R24). -/
  rdValidQ : Bool
  /-- `done_q` (10_state.md R24). -/
  doneQ : Bool
  /-- `ok_q` (10_state.md R24). -/
  okQ : Bool
  /-- `err_q`: the code of the last finished attempt (10_state.md R24, 30_encoding.md R71). -/
  errQ : BitVec 3
  /-- `eb_q`: byte_index of a BitTimeoutError (10_state.md R24, 30_encoding.md R73). -/
  ebQ : BitVec 3
  /-- `ebit_q`: bit_index of a BitTimeoutError (10_state.md R24, 30_encoding.md R73). -/
  ebitQ : BitVec 3
  /-- The parameters of the build, which no step changes (00_scope.md R6, log entry 1). -/
  build : Build
  /-- The inputs of the coming cycles as far as they are settled, this cycle's first (log entry 2). -/
  pins : List Inputs
  /-- The number of cycles run, which picks the free inputs of a cycle that `pins` does not list (log entry 2). -/
  cycle : Nat
  deriving DecidableEq, Repr

/-- Why the machine stops with a fault. It has no constructor: no state and no input of this block stops it
(30_encoding.md R76; the source's errors are ordinary results, 60_exceptions.md R200). Log entry 8. -/
inductive Fault where
  deriving DecidableEq, Repr

/-- Why a step has no meaning. -/
inductive Refusal where
  /-- Raised by an arm of `exec` for an instruction without a meaning: safe. No arm raises it. -/
  | notModelled (mnemonic : String)
  deriving DecidableEq, Repr

/-- Every register at the reset value of 10_state.md R32, for a build, with no input settled and no cycle run. -/
def State.resetOf (b : Build) : State where
  st := Phase.idle.code
  cnt := 0
  thr := 0
  idx := 0
  frame := 0
  sync := List.replicate b.syncStages .high
  humQ := 0
  tempQ := 0
  rdValidQ := false
  doneQ := false
  okQ := false
  errQ := 0
  ebQ := 0
  ebitQ := 0
  build := b
  pins := []
  cycle := 0

/-- The machine right after reset (10_state.md R32), of the chip at hand. -/
def State.reset : State := State.resetOf Config.build

end Sys2Proof.Machine
end

