-- ==== Sys2Proof/Machine/Operands.lean ====
section
/-!
DEFINITION. What a state rule reads: the inputs of the cycle, the line, the sample S, the halves of `idx` and the bytes of
`frame`. And the width a write to `cnt` or `thr` keeps.
-/
namespace Sys2Proof.Machine

/-- The input ports in this cycle: the first listed ones, or free ones (10_state.md R28, log entry 2). -/
def inputs (s : State) : Inputs :=
  match s.pins with
  | p :: _ => p
  | [] => ⟨Config.freeRst s.cycle, Config.freeStart s.cycle, if Config.freeSensorHigh s.cycle then .high else .low⟩

/-- `line_oe`: the block drives the line exactly while `st` = START (10_state.md R27). -/
def lineOe (s : State) : Bool := s.st == Phase.start.code

/-- The level of the line in this cycle, which is also the pad's `line_in` (20_memory.md R52). -/
def lineLevel (s : State) : Level := if lineOe s then .low else (inputs s).sensor

/-- S: the level the engine sees, the last synchronizer stage, or the line itself where there is none
(20_memory.md R53). A missing last stage, which no run has, reads HIGH (log entry 7). -/
def sample (s : State) : Level :=
  if s.build.syncStages = 0 then lineLevel s else s.sync.getD (s.build.syncStages - 1) .high

/-- `idx[5:3]`: the byte_index (10_state.md R22). -/
def byteIndex (s : State) : BitVec 3 := s.idx.extractLsb' 3 3

/-- `idx[2:0]`: the bit_index (10_state.md R22). -/
def bitIndex (s : State) : BitVec 3 := s.idx.extractLsb' 0 3

/-- Byte j of the RawFrame, `frame[39−8j : 32−8j]` (10_state.md R23). -/
def frameByte (frame : BitVec 40) (j : Nat) : Byte := frame.extractLsb' (32 - 8 * j) 8

/-- What a CW-bit register holds once `v` is written to it (10_state.md R22, log entry 5). -/
def keepCW (b : Build) (v : Nat) : Nat := v % 2 ^ b.cw

end Sys2Proof.Machine
end

