-- ==== Sys2Proof/Machine/Flags.lean ====
section
/-!
DEFINITION. The status flags and the output ports: functions of the current state alone (10_state.md R24, R26, R27), and
the code and position fields of an outcome (30_encoding.md R71, R73).
-/
namespace Sys2Proof.Machine

/-- `busy`: `st ≠ IDLE` (10_state.md R27). -/
def busy (s : State) : Bool := s.st != Phase.idle.code

/-- The level of `line_out` as a bit: constant 0 (10_state.md R27). -/
def lineOut (_ : State) : BitVec 1 := 0

/-- Every output port in this cycle (10_state.md R26, R27). -/
def outputs (s : State) : Outputs where
  lineOe := lineOe s
  lineOut := lineOut s
  busy := busy s
  done := s.doneQ
  ok := s.okQ
  errCode := s.errQ
  errByte := s.ebQ
  errBit := s.ebitQ
  humidity := s.humQ
  temperature := s.tempQ
  rdValid := s.rdValidQ

/-- The value `finish` gives `ok_q` (60_exceptions.md R200). -/
def okOf (code : BitVec 3) : Bool := code == 0

/-- The code of an error (30_encoding.md R71). -/
def errorCode : BlockError → BitVec 3
  | .registerMap => 1
  | .busBusy => 2
  | .responseTimeout => 3
  | .calibrationTimeout => 4
  | .frameStartTimeout => 5
  | .bitTimeout _ _ => 6
  | .checksumMismatch => 7

/-- The `err_byte` of an error: the byte_index of a BitTimeoutError, else 0 (30_encoding.md R73). -/
def errorByte : BlockError → BitVec 3
  | .bitTimeout byteIndex _ => byteIndex
  | .registerMap | .busBusy | .responseTimeout | .calibrationTimeout | .frameStartTimeout | .checksumMismatch => 0

/-- The `err_bit` of an error: the bit_index of a BitTimeoutError, else 0 (30_encoding.md R73). -/
def errorBit : BlockError → BitVec 3
  | .bitTimeout _ bitIndex => bitIndex
  | .registerMap | .busBusy | .responseTimeout | .calibrationTimeout | .frameStartTimeout | .checksumMismatch => 0

end Sys2Proof.Machine
end

