-- ==== Sys2Proof/Machine/Ops.lean ====
section
/-!
DEFINITION. The shared operations: the polling primitives (40_handshake.md R100, R101), the completion `finish`
(60_exceptions.md R200), which is how this block takes an exception, the reset of all registers
(70_reset_and_hazards.md R240), and what a cycle does around its state rule (10_state.md R31).

A rule reads the registers at the start of the cycle; each operation below is one record update over the state it is
given, and the rules apply them to the state of the cycle's start (log entry 6).
-/
namespace Sys2Proof.Machine

/-- `st <- p`. -/
def goto (p : Phase) (s : State) : State := { s with st := p.code }

/-- `cnt <- 0`. -/
def clearCnt (s : State) : State := { s with cnt := 0 }

/-- `cnt <- cnt + 1`, kept to CW bits. -/
def countUp (s : State) : State := { s with cnt := keepCW s.build (s.cnt + 1) }

/-- `thr <- v`, kept to CW bits. -/
def writeThr (v : Nat) (s : State) : State := { s with thr := keepCW s.build v }

/-- `finish(code, eb, ebit)`: the one way an attempt ends (60_exceptions.md R200). `done_q` is set here and cleared by
every cycle that does not finish (`beginCycle`). It leaves `cnt`, `thr`, `idx` and `frame`. -/
def finish (code eb ebit : BitVec 3) (s : State) : State :=
  { s with
    st := Phase.idle.code
    doneQ := true
    okQ := okOf code
    errQ := code
    ebQ := eb
    ebitQ := ebit }

/-- `raise E(info)`: finish with the error's code and position (60_exceptions.md R200). There is no return from it
(R209). -/
def raise (e : BlockError) (s : State) : State := finish (errorCode e) (errorByte e) (errorBit e) s

/-- A bounded wait: the exit sample ends it, and the stay sample taken while `cnt` = TIMEOUT raises the error
(40_handshake.md R100). -/
def boundedWait (stay : Level) (onExit : State → State) (e : BlockError) (s : State) : State :=
  if sample s ≠ stay then onExit s
  else if s.cnt = s.build.timeout then raise e s
  else countUp s

/-- The unbounded wait: a stay sample changes nothing (40_handshake.md R101). -/
def unboundedWait (stay : Level) (onExit : State → State) (s : State) : State :=
  if sample s ≠ stay then onExit s else s

/-- The stages after a shift: `sync[0] <- line`, `sync[i] <- sync[i−1]` (20_memory.md R53). -/
def shiftSync (b : Build) (line : Level) (sync : List Level) : List Level := (line :: sync).take b.syncStages

/-- The inputs of this cycle are used up. -/
def nextCycle (s : State) : State := { s with pins := s.pins.tail, cycle := s.cycle + 1 }

/-- A cycle with `rst` = 1: every register takes its reset value, whatever the state (70_reset_and_hazards.md R240). -/
def resetAll (s : State) : State :=
  { State.resetOf s.build with pins := s.pins.tail, cycle := s.cycle + 1 }

/-- The start of a cycle with `rst` = 0: `done_q <- 0`, overridden where the state rule finishes (10_state.md R31). -/
def beginCycle (s : State) : State := { s with doneQ := false }

/-- The end of a cycle with `rst` = 0 that began in `s` and whose state rule gave `t`: the synchronizer takes the level
the line had in `s` (10_state.md R31), and the inputs of the cycle are used up. -/
def endCycle (s t : State) : State :=
  nextCycle { t with sync := shiftSync s.build (lineLevel s) s.sync }

end Sys2Proof.Machine
end

