-- ==== Sys2Proof/Machine/Calibration.lean ====
section
/-!
DEFINITION. Threshold auto-calibration: CAL (41_calibration.md R130 to R133).
-/
namespace Sys2Proof.Machine

/-- The threshold of a reference pulse of `n` counted polls: `(n * 50) div 80`, exact, rounded toward zero
(41_calibration.md R132). -/
def threshold (n : Nat) : Nat := n * 50 / 80

/-- `CAL`: count the LOW samples of the reference pulse and set the threshold (41_calibration.md R130). -/
def execCal (s : State) : Host.Outcome State Fault Refusal :=
  .next (boundedWait .low (fun u => goto .fstart (clearCnt (writeThr (threshold u.cnt) u))) .calibrationTimeout s)

end Sys2Proof.Machine
end

