-- ==== Sys2Proof/Machine/FrameDecoder.lean ====
section
/-!
DEFINITION. The frame start and the 40-bit decoder: FSTART, BITRISE and BITHIGH (42_frame_decoder.md R150 to R153).
-/
namespace Sys2Proof.Machine

/-- `FSTART`: await the falling edge that starts the data (42_frame_decoder.md R150). -/
def execFstart (s : State) : Host.Outcome State Fault Refusal :=
  .next (boundedWait .high (fun u => goto .bitrise (clearCnt u)) .frameStartTimeout s)

/-- `BITRISE`: await the bit's rising edge, with no ceiling; `cnt` is held at 0 (42_frame_decoder.md R151). -/
def execBitrise (s : State) : Host.Outcome State Fault Refusal :=
  .next (unboundedWait .low (goto .bithigh) (clearCnt s))

/-- The value of a bit whose HIGH pulse has the counted width `w`: 1 exactly when `w > thr` (42_frame_decoder.md R153). -/
def bitOf (w thr : Nat) : Bool := decide (thr < w)

/-- `{frame[38:0], bit}` (42_frame_decoder.md R152, R153). -/
def shiftIn (frame : BitVec 40) (bit : Bool) : BitVec 40 := frame.extractLsb' 0 39 ++ BitVec.ofBool bit

/-- The exit action of BITHIGH: record the bit, and go on to the next bit or, after the 40th, to VALIDATE
(42_frame_decoder.md R152). -/
def recordBit (s : State) : State :=
  { s with
    frame := shiftIn s.frame (bitOf s.cnt s.thr)
    cnt := 0
    idx := if s.idx = 39 then s.idx else s.idx + 1
    st := if s.idx = 39 then Phase.validate.code else Phase.bitrise.code }

/-- `BITHIGH`: count the bit's HIGH pulse and record the bit (42_frame_decoder.md R152), the bounded wait of
40_handshake.md R100 with stay = HIGH. -/
def execBithigh (s : State) : Host.Outcome State Fault Refusal :=
  .next (boundedWait .high recordBit (.bitTimeout (byteIndex s) (bitIndex s)) s)

end Sys2Proof.Machine
end

