-- ==== Sys2Proof/Machine/Handshake.lean ====
section
/-!
DEFINITION. The handshake: IDLE and the host's request, START, SETTLE and RESP (40_handshake.md R103 to R106).
-/
namespace Sys2Proof.Machine

/-- `IDLE` with `start` = 0: nothing is written (40_handshake.md R103). -/
def execIdle (s : State) : Host.Outcome State Fault Refusal := .next s

/-- The writes of an accepted request (40_handshake.md R103). -/
def accept (s : State) : State :=
  { s with st := Phase.start.code, cnt := 0, thr := 0, idx := 0, frame := 0 }

/-- `START_REQ`: the bus-idle check, one sample, then acceptance (40_handshake.md R103). -/
def execStartReq (s : State) : Host.Outcome State Fault Refusal :=
  .next (if sample s = .low then raise .busBusy s else accept s)

/-- The phase that follows START: SETTLE, or RESP in a build without a settle time (40_handshake.md R104). -/
def afterStart (b : Build) : Phase := if 0 < b.releaseSettle then .settle else .resp

/-- `START`: hold the line LOW for START_HOLD cycles (40_handshake.md R104). The drive itself is `lineOe`. The rule's
`cnt = START_HOLD − 1` is written without a subtraction (log entry 5). -/
def execStart (s : State) : Host.Outcome State Fault Refusal :=
  .next (if s.cnt + 1 = s.build.startHold then goto (afterStart s.build) (clearCnt s) else countUp s)

/-- `SETTLE`: let the line return HIGH for RELEASE_SETTLE cycles (40_handshake.md R105). -/
def execSettle (s : State) : Host.Outcome State Fault Refusal :=
  .next (if s.cnt + 1 = s.build.releaseSettle then goto .resp (clearCnt s) else countUp s)

/-- `RESP`: await the response falling edge (40_handshake.md R106). -/
def execResp (s : State) : Host.Outcome State Fault Refusal :=
  .next (boundedWait .high (fun u => goto .cal (clearCnt u)) .responseTimeout s)

end Sys2Proof.Machine
end

