-- ==== Sys2Proof/Machine/Reserved.lean ====
section
/-!
DEFINITION. The unused state codes 9 to 15: one cycle back to IDLE, and no other write (30_encoding.md R72). No run from
reset reaches them.
-/
namespace Sys2Proof.Machine

/-- `UNUSED_9`: `st <- IDLE` and nothing else (30_encoding.md R72). -/
def execUnused9 (s : State) : Host.Outcome State Fault Refusal := .next (goto .idle s)

/-- `UNUSED_A_B`: `st <- IDLE` and nothing else (30_encoding.md R72). The code makes no difference. -/
def execUnusedAB (_ : BitVec 4) (s : State) : Host.Outcome State Fault Refusal := .next (goto .idle s)

/-- `UNUSED_C_F`: `st <- IDLE` and nothing else (30_encoding.md R72). The code makes no difference. -/
def execUnusedCF (_ : BitVec 4) (s : State) : Host.Outcome State Fault Refusal := .next (goto .idle s)

end Sys2Proof.Machine
end

