-- ==== Sys2Proof/Machine/Validator.lean ====
section
/-!
DEFINITION. The checksum validator and the field decode: VALIDATE (43_validator.md R180 to R183).
-/
namespace Sys2Proof.Machine

/-- The first four bytes sum, modulo 256, to the fifth; the sum is formed in 10 bits (43_validator.md R181). -/
def checksumOk (b0 b1 b2 b3 b4 : Byte) : Bool :=
  (b0.setWidth 10 + b1.setWidth 10 + b2.setWidth 10 + b3.setWidth 10).toNat % 256 == b4.toNat

/-- `{b0, b1}`: tenths of a percent, unsigned (43_validator.md R182). -/
def humidity (b0 b1 : Byte) : BitVec 16 := b0 ++ b1

/-- `{b2[6:0], b3}`: the 15-bit magnitude of the temperature (43_validator.md R183). -/
def magnitude (b2 b3 : Byte) : BitVec 15 := b2.extractLsb' 0 7 ++ b3

/-- The temperature in tenths of a degree, in two's complement: the magnitude, negated if `b2[7]` is set
(43_validator.md R183). -/
def temperature (b2 b3 : Byte) : BitVec 16 :=
  if b2.getLsbD 7 then BitVec.ofNat 16 ((0x10000 - (magnitude b2 b3).toNat) % 0x10000)
  else (magnitude b2 b3).setWidth 16

/-- The checksum test over the frame register (43_validator.md R180). -/
def frameOk (frame : BitVec 40) : Bool :=
  checksumOk (frameByte frame 0) (frameByte frame 1) (frameByte frame 2) (frameByte frame 3) (frameByte frame 4)

/-- The Reading registers after a frame that passes: the decoded fields and `rd_valid_q` = 1 (43_validator.md R180). -/
def publish (s : State) : State :=
  { s with
    humQ := humidity (frameByte s.frame 0) (frameByte s.frame 1)
    tempQ := temperature (frameByte s.frame 2) (frameByte s.frame 3)
    rdValidQ := true }

/-- `VALIDATE`: check the frame; publish the Reading and finish with code 0, or raise ChecksumMismatchError
(43_validator.md R180). -/
def execValidate (s : State) : Host.Outcome State Fault Refusal :=
  .next (if frameOk s.frame then finish 0 0 0 (publish s) else raise .checksumMismatch s)

end Sys2Proof.Machine
end

