-- ==== Sys2Proof/Machine/Dispatch.lean ====
section
/-!
DEFINITION. The dispatch over all states (10_state.md R31, 30_encoding.md R79): one arm per instruction.
-/
namespace Sys2Proof.Machine

/-- The state rule of one cycle with `rst` = 0 (10_state.md R31, step 3). -/
def exec (i : Instr) (s : State) : Host.Outcome State Fault Refusal :=
  match i with
  | .idle => Sys2Proof.Machine.execIdle s
  | .startReq => Sys2Proof.Machine.execStartReq s
  | .start => Sys2Proof.Machine.execStart s
  | .settle => Sys2Proof.Machine.execSettle s
  | .resp => Sys2Proof.Machine.execResp s
  | .cal => Sys2Proof.Machine.execCal s
  | .fstart => Sys2Proof.Machine.execFstart s
  | .bitrise => Sys2Proof.Machine.execBitrise s
  | .bithigh => Sys2Proof.Machine.execBithigh s
  | .validate => Sys2Proof.Machine.execValidate s
  | .unused9 => Sys2Proof.Machine.execUnused9 s
  | .unusedAB code => Sys2Proof.Machine.execUnusedAB code s
  | .unusedCF code => Sys2Proof.Machine.execUnusedCF code s

end Sys2Proof.Machine
end

