-- ==== Sys2Proof/Machine/Step.lean ====
section
/-!
DEFINITION. One cycle of `clk` (10_state.md R31), and the placing of an instruction where the next cycle runs it.
-/
namespace Sys2Proof.Machine

/-- The instruction this cycle dispatches to, from the `start` port and `st` (30_encoding.md R79). -/
def current (s : State) : Instr := decodeState (inputs s).start s.st

/-- One rising edge of `clk` (00_scope.md R7, 10_state.md R31): reset, or one state rule with what stands around it. -/
def step (s : State) : Host.Outcome State Fault Refusal :=
  if (inputs s).rst then .next (resetAll s)
  else
    match exec (current s) (beginCycle s) with
    | .next t => .next (endCycle s t)
    | .fault r => .fault r
    | .refused r => .refused r

/-- `s` with the dispatch word `w` where the next cycle takes it from: `st` in bits 3 to 0, and in this cycle's inputs
`start` in bit 4, with `rst` = 0 so that a state rule runs. The sensor's level and everything else stay (log entry 4). -/
def State.withFetchWord (s : State) (_nbits w : Nat) : State :=
  { s with
    st := BitVec.ofNat 4 w
    pins := { inputs s with rst := false, start := w.testBit 4 } :: s.pins.tail }

end Sys2Proof.Machine
end

