-- ==== Sys2Proof/Laws/Decode.lean ====
section
/-! SUPPORT. The decoder: which instruction each value of (`start`, `st`) selects. -/
namespace Sys2Proof

/-! The code of each phase (30_encoding.md R70). -/

@[simp] theorem Phase.idle_code : Phase.idle.code = 0 := rfl

@[simp] theorem Phase.start_code : Phase.start.code = 1 := rfl

@[simp] theorem Phase.settle_code : Phase.settle.code = 2 := rfl

@[simp] theorem Phase.resp_code : Phase.resp.code = 3 := rfl

@[simp] theorem Phase.cal_code : Phase.cal.code = 4 := rfl

@[simp] theorem Phase.fstart_code : Phase.fstart.code = 5 := rfl

@[simp] theorem Phase.bitrise_code : Phase.bitrise.code = 6 := rfl

@[simp] theorem Phase.bithigh_code : Phase.bithigh.code = 7 := rfl

@[simp] theorem Phase.validate_code : Phase.validate.code = 8 := rfl

/-- The codes of the nine phases and of the unused rows, and what is decoded there. -/
theorem decodeState_eq (start : Bool) (st : BitVec 4) :
    (st = Phase.idle.code ∧ decodeState start st = if start then .startReq else .idle) ∨
    (st = Phase.start.code ∧ decodeState start st = .start) ∨
    (st = Phase.settle.code ∧ decodeState start st = .settle) ∨
    (st = Phase.resp.code ∧ decodeState start st = .resp) ∨
    (st = Phase.cal.code ∧ decodeState start st = .cal) ∨
    (st = Phase.fstart.code ∧ decodeState start st = .fstart) ∨
    (st = Phase.bitrise.code ∧ decodeState start st = .bitrise) ∨
    (st = Phase.bithigh.code ∧ decodeState start st = .bithigh) ∨
    (st = Phase.validate.code ∧ decodeState start st = .validate) ∨
    (st = 9 ∧ decodeState start st = .unused9) ∨
    (isCodeAB st = true ∧ decodeState start st = .unusedAB st) ∨
    (isCodeCF st = true ∧ decodeState start st = .unusedCF st) := by
  revert start st; decide

theorem ten_le_of_isCodeAB {st : BitVec 4} (h : isCodeAB st = true) : 10 ≤ st.toNat := by
  revert st; decide

theorem twelve_le_of_isCodeCF {st : BitVec 4} (h : isCodeCF st = true) : 12 ≤ st.toNat := by
  revert st; decide

/-- The dispatch word of a pair decodes to what the pair selects. -/
theorem decode_dispatchWord (start : Bool) (st : BitVec 4) (rest : List Byte) :
    decode (dispatchWord start st :: rest) = .ok (decodeState start st, rest) := by
  obtain ⟨h5, h4, h0⟩ : (dispatchWord start st).extractLsb' 5 3 = 0#3 ∧ (dispatchWord start st).getLsbD 4 = start ∧
      (dispatchWord start st).extractLsb' 0 4 = st := by revert start st; decide
  simp only [decode, h5, h4, h0, if_true]

/-- An instruction read from a table word is the one that the word's bits 4 to 0 select. -/
theorem eq_of_decodeTableWord {nbits w : Nat} {i : Instr} (h : decodeTableWord nbits w = some i) :
    i = decodeState (w.testBit 4) (BitVec.ofNat 4 w) := by
  unfold decodeTableWord tableBytes at h
  obtain ⟨n, hn⟩ : ∃ n, max 1 ((nbits + 7) / 8) = n + 1 := ⟨max 1 ((nbits + 7) / 8) - 1, by omega⟩
  rw [hn, List.range_succ_eq_map, List.map_cons, decode] at h
  split at h
  · rename_i hd
    split at hd
    · simp only [Except.ok.injEq, Prod.mk.injEq] at hd
      have h4 : (BitVec.ofNat 8 (w >>> (8 * 0))).getLsbD 4 = w.testBit 4 := by
        simp [-BitVec.getLsbD_eq_getElem, BitVec.getLsbD_ofNat]
      have h0 : (BitVec.ofNat 8 (w >>> (8 * 0))).extractLsb' 0 4 = BitVec.ofNat 4 w := by
        apply BitVec.eq_of_toNat_eq; simp
      split at h
      · injection h with h
        rw [← h, ← hd.1, h4, h0]
      · cases h
    · cases hd
  · cases h

end Sys2Proof
end

