-- ==== Sys2Proof/Laws/PerInstr.lean ====
section
/-!
SUPPORT. Statements about every instruction as a term, one lemma per constructor.

The family DecodeEncode: reading the bytes of a well-formed instruction gives the instruction back, and leaves the bytes
after it.
-/
namespace Sys2Proof.Laws.DecodeEncode

/-- Decoding the bytes of a well-formed instruction, whatever follows them, gives the instruction and what follows. -/
def Statement (i : Instr) : Prop :=
  i.wf = true → ∀ rest : List Byte, decode (encode i ++ rest) = .ok (i, rest)

theorem idle : Statement .idle := fun _ _ => rfl

theorem startReq : Statement .startReq := fun _ _ => rfl

theorem start : Statement .start := fun _ _ => rfl

theorem settle : Statement .settle := fun _ _ => rfl

theorem resp : Statement .resp := fun _ _ => rfl

theorem cal : Statement .cal := fun _ _ => rfl

theorem fstart : Statement .fstart := fun _ _ => rfl

theorem bitrise : Statement .bitrise := fun _ _ => rfl

theorem bithigh : Statement .bithigh := fun _ _ => rfl

theorem validate : Statement .validate := fun _ _ => rfl

theorem unused9 : Statement .unused9 := fun _ _ => rfl

/-- A reserved code keeps all four of its bits through its word. -/
theorem reserved_word (code : BitVec 4) :
    (code.setWidth 8).extractLsb' 5 3 = 0#3 ∧ (code.setWidth 8).extractLsb' 0 4 = code ∧
      (isCodeAB code = true → decodeState ((code.setWidth 8).getLsbD 4) code = .unusedAB code) ∧
      (isCodeCF code = true → decodeState ((code.setWidth 8).getLsbD 4) code = .unusedCF code) := by
  revert code; decide

theorem unusedAB (code : BitVec 4) : Statement (.unusedAB code) := fun h rest => by
  obtain ⟨h5, h0, hd, -⟩ := reserved_word code
  simp only [encode, encodeWord, List.cons_append, List.nil_append, decode, h5, h0, hd h, if_true]

theorem unusedCF (code : BitVec 4) : Statement (.unusedCF code) := fun h rest => by
  obtain ⟨h5, h0, -, hd⟩ := reserved_word code
  simp only [encode, encodeWord, List.cons_append, List.nil_append, decode, h5, h0, hd h, if_true]

end Sys2Proof.Laws.DecodeEncode
end

