-- ==== Sys2Proof/Safety.lean ====
section
/-!
DEFINITION. The terms the claims about runs use: the invariant of the engine, and what a run sees on its line.
-/
namespace Sys2Proof.Machine

/-- The code of a phase in which a bounded wait polls: RESP, CAL, FSTART or BITHIGH (40_handshake.md R100). -/
abbrev polling (st : BitVec 4) : Prop :=
  st = Phase.resp.code ∨ st = Phase.cal.code ∨ st = Phase.fstart.code ∨ st = Phase.bithigh.code

/-- The code of a phase before the first bit of an attempt: START, SETTLE, RESP, CAL or FSTART. -/
abbrev beforeBits (st : BitVec 4) : Prop :=
  st = Phase.start.code ∨ st = Phase.settle.code ∨ st = Phase.resp.code ∨ st = Phase.cal.code ∨ st = Phase.fstart.code

/-- The code of a phase before the calibration of an attempt has ended: START, SETTLE, RESP or CAL. -/
abbrev beforeThreshold (st : BitVec 4) : Prop :=
  st = Phase.start.code ∨ st = Phase.settle.code ∨ st = Phase.resp.code ∨ st = Phase.cal.code

/-- What every state between reset and any later cycle has, in a build whose counters fit (`Build.fits`). -/
structure Inv (s : State) : Prop where
  /-- `st` holds one of the nine codes (30_encoding.md R72). -/
  st_defined : s.st.toNat ≤ 8
  /-- There are SYNC_STAGES stages (10_state.md R22). -/
  sync_length : s.sync.length = s.build.syncStages
  /-- `cnt` is a CW-bit value (10_state.md R22). -/
  cnt_width : s.cnt < 2 ^ s.build.cw
  /-- `thr` is a CW-bit value (10_state.md R22). -/
  thr_width : s.thr < 2 ^ s.build.cw
  /-- `cnt` never passes TIMEOUT in a bounded wait (60_exceptions.md R212). -/
  cnt_polling : polling s.st → s.cnt ≤ s.build.timeout
  /-- `cnt` never passes START_HOLD − 1 in START (60_exceptions.md R212). -/
  cnt_start : s.st = Phase.start.code → s.cnt < s.build.startHold
  /-- `cnt` never passes RELEASE_SETTLE − 1 in SETTLE (60_exceptions.md R212). -/
  cnt_settle : s.st = Phase.settle.code → s.cnt < s.build.releaseSettle
  /-- BITRISE and VALIDATE have `cnt` = 0 (40_handshake.md R102, 42_frame_decoder.md R152). -/
  cnt_zero : s.st = Phase.bitrise.code ∨ s.st = Phase.validate.code → s.cnt = 0
  /-- The range of the threshold (41_calibration.md R133). -/
  thr_range : s.thr ≤ 5 * s.build.timeout / 8
  /-- No threshold of an earlier attempt is left (41_calibration.md R135). -/
  thr_cleared : beforeThreshold s.st → s.thr = 0
  /-- `idx` never exceeds 39 (42_frame_decoder.md R152). -/
  idx_range : s.idx.toNat ≤ 39
  /-- No bit of an earlier attempt is left (40_handshake.md R103). -/
  bits_cleared : beforeBits s.st → s.idx = 0 ∧ s.frame = 0
  /-- The bits above those received are 0 (42_frame_decoder.md R153). -/
  frame_received : s.st = Phase.bitrise.code ∨ s.st = Phase.bithigh.code → s.frame.toNat < 2 ^ s.idx.toNat
  /-- A frame is validated after the 40th bit (20_memory.md R56). -/
  idx_validate : s.st = Phase.validate.code → s.idx = 39
  /-- Code 1 is never produced (60_exceptions.md R203). -/
  err_not_reserved : s.errQ ≠ 1
  /-- `err_byte` is 0 to 4 (30_encoding.md R73). -/
  errByte_range : s.ebQ.toNat ≤ 4
  /-- The position fields are 0 for every other outcome (30_encoding.md R73). -/
  position_zero : s.errQ ≠ 6 → s.ebQ = 0 ∧ s.ebitQ = 0
  /-- `ok` = 1 only with code 0 (30_encoding.md R71). -/
  ok_code : s.okQ = true → s.errQ = 0
  /-- In the cycle of a `done` pulse, `ok` = 1 exactly when the code is 0 (30_encoding.md R71). -/
  done_ok : s.doneQ = true → (s.okQ = true ↔ s.errQ = 0)
  /-- The engine is in IDLE in the cycle of a `done` pulse (60_exceptions.md R207). -/
  done_idle : s.doneQ = true → s.st = Phase.idle.code
  /-- A success has set `rd_valid` (10_state.md R24). -/
  ok_valid : s.okQ = true → s.rdValidQ = true
  /-- Without a success since reset the Reading registers hold their reset values (10_state.md R24). -/
  unread_zero : s.rdValidQ = false → s.humQ = 0 ∧ s.tempQ = 0
  /-- `temp_q` is −32767 to +32767 (43_validator.md R183). -/
  temp_range : s.tempQ ≠ 0x8000

/-- `k` cycles from `s`, by the host's own run. -/
def run (k : Nat) (s : State) : Host.Outcome State Fault Refusal := Host.Core.run Sys2Proof.core k s

/-- The run of `l.length` cycles from `s` sees the levels of `l` as its samples S, cycle by cycle, with `rst` = 0 in
each; `none` is a cycle whose sample may be either. -/
def observes : List (Option Level) → State → Bool
  | [], _ => true
  | want :: rest, s =>
    !(inputs s).rst && (match want with | none => true | some l => sample s == l) &&
      (match step s with
       | .next t => observes rest t
       | .fault _ => false
       | .refused _ => false)

/-- One bit of the frame as the samples show it: `low` LOW samples, then `high` HIGH ones (30_encoding.md R74, segments
6 and 7). -/
structure BitPulse where
  low : Nat
  high : Nat
  deriving DecidableEq, Repr

/-- `n` samples of one level. -/
def held (n : Nat) (l : Level) : List (Option Level) := List.replicate n (some l)

/-- The samples of a list of bits. -/
def bitSamples : List BitPulse → List (Option Level)
  | [] => []
  | p :: ps => held p.low .low ++ held p.high .high ++ bitSamples ps

/-- A bit the decoder can read: both levels are seen, and the HIGH pulse stays under the ceiling (40_handshake.md
R100): at most TIMEOUT samples are counted after the one that BITRISE takes. -/
abbrev BitPulse.readable (b : Build) (p : BitPulse) : Prop :=
  1 ≤ p.low ∧ 1 ≤ p.high ∧ p.high ≤ b.timeout + 1

/-- The number of samples of a list of bits. -/
def pulseCycles : List BitPulse → Nat
  | [] => 0
  | p :: ps => p.low + p.high + pulseCycles ps

/-- The frame register after some bits, given their values in the order of reception. -/
def shiftInAll (frame : BitVec 40) (bits : List Bool) : BitVec 40 :=
  bits.foldl (fun f b => f <<< 1 ||| (BitVec.ofBool b).setWidth 40) frame

end Sys2Proof.Machine
end

