-- ==== Sys2Proof/Certificates/Slice0/Obligations.lean ====
section
/-!
DEFINITION. The statements for the provers. Codes, error numbers and field positions are written as the numbers the spec
gives them, not through the model's own tables, so that a wrong table would make a statement false.
-/
open Sys2Proof Sys2Proof.Machine

/-! ## Encodings and dispatch (30_encoding.md) -/

/-- Decode and encode agree for every well-formed instruction, whatever bytes follow. The byte form of a dispatch word is
the model's choice (log entry 3). -/
def Obligations.DecodingAnEncodedInstructionGivesItBack : Prop :=
  ∀ i : Instr, Laws.DecodeEncode.Statement i

/-- R79: exactly one row matches each of the 16 codes, and the decoder answers that row's instruction; `start` tells the
host's request from IDLE in code 0, and nothing elsewhere. -/
def Obligations.EveryStateCodeHasOneRowAndItsInstruction : Prop :=
  ∀ (start : Bool) (st : BitVec 4),
    (stateRows.filter (·.matchesCode st)).length = 1 ∧
    ∀ r ∈ stateRows, r.matchesCode st = true →
      (decodeState start st).mnemonic = if st = 0 ∧ start = true then "START_REQ" else r.mnemonic

/-- Words written out from the opcode table's bits decode to the instruction they stand for (log entry 3 for bit 4). -/
def Obligations.WordsOfTheTableDecodeToTheirInstructions : Prop :=
  decodeTableWord 8 0b0000_0000 = some .idle ∧ decodeTableWord 8 0b0001_0000 = some .startReq ∧
  decodeTableWord 8 0b0000_0001 = some .start ∧ decodeTableWord 8 0b0000_0100 = some .cal ∧
  decodeTableWord 8 0b0000_0111 = some .bithigh ∧ decodeTableWord 8 0b0000_1000 = some .validate ∧
  decodeTableWord 8 0b0000_1001 = some .unused9 ∧ decodeTableWord 8 0b0000_1011 = some (.unusedAB 11) ∧
  decodeTableWord 8 0b0000_1110 = some (.unusedCF 14) ∧ decodeTableWord 8 0b0010_0000 = none

/-- The decoder reads every byte up to 31 as a well-formed instruction of the same code and refuses every other byte by
name, and no byte at all (log entry 3). -/
def Obligations.DecoderKeepsTheCodeAndRefusesOtherBytes : Prop :=
  decode [] = .error .noByte ∧
  ∀ (b : Byte) (rest : List Byte),
    (b.toNat < 32 → ∃ i, decode (b :: rest) = .ok (i, rest) ∧ i.wf = true ∧
      encodeWord i &&& 0x0F = b &&& 0x0F ∧ (i = .startReq ↔ b = 0x10)) ∧
    (32 ≤ b.toNat → decode (b :: rest) = .error .reservedBits)

/-- A cycle without reset runs the instruction that the dispatch word `{0b000, start, st}` decodes to, on the state with
`done_q` cleared, and then shifts the synchronizer and uses up the cycle's inputs (10_state.md R31, log entries 3, 6). -/
def Obligations.StepRunsTheDecodedInstruction : Prop :=
  ∀ (s : State) (i : Instr) (rest : List Byte), (inputs s).rst = false →
    decode ((0b000#3 ++ BitVec.ofBool (inputs s).start ++ s.st) :: rest) = .ok (i, rest) →
    step s =
      match exec i { s with doneQ := false } with
      | .next t => .next { t with sync := (lineLevel s :: s.sync).take s.build.syncStages
                                  pins := t.pins.tail
                                  cycle := t.cycle + 1 }
      | .fault r => .fault r
      | .refused r => .refused r

/-- Placing a table word and stepping runs the instruction the decoder reads from that word (log entry 4). -/
def Obligations.PlacedWordIsRunByTheNextStep : Prop :=
  ∀ (s : State) (nbits w : Nat) (i : Instr), decodeTableWord nbits w = some i →
    ∃ t, exec i (beginCycle (s.withFetchWord nbits w)) = .next t ∧
      step (s.withFetchWord nbits w) = .next (endCycle (s.withFetchWord nbits w) t)

/-! ## The state rules -/

/-- R103: IDLE without a request writes nothing; a request is answered by BusBusyError (code 2) if the sample is LOW,
and accepted otherwise. -/
def Obligations.RequestIsCheckedAgainstTheBus : Prop :=
  ∀ s : State,
    exec .idle s = .next s ∧
    (sample s = .low →
      exec .startReq s = .next { s with st := 0, doneQ := true, okQ := false, errQ := 2, ebQ := 0, ebitQ := 0 }) ∧
    (sample s = .high → exec .startReq s = .next { s with st := 1, cnt := 0, thr := 0, idx := 0, frame := 0 })

/-- R104: START drives the line LOW; on `cnt` = START_HOLD − 1 it goes to SETTLE, or to RESP if RELEASE_SETTLE is 0;
else it counts. -/
def Obligations.StartPulseHoldsTheLineLow : Prop :=
  ∀ s : State,
    (s.st = 1 → lineOe s = true ∧ lineLevel s = .low) ∧
    (s.cnt + 1 = s.build.startHold → 0 < s.build.releaseSettle → exec .start s = .next { s with st := 2, cnt := 0 }) ∧
    (s.cnt + 1 = s.build.startHold → s.build.releaseSettle = 0 → exec .start s = .next { s with st := 3, cnt := 0 }) ∧
    (s.cnt + 1 ≠ s.build.startHold → exec .start s = .next { s with cnt := (s.cnt + 1) % 2 ^ s.build.cw })

/-- R105: SETTLE releases the line and lasts until `cnt` = RELEASE_SETTLE − 1. -/
def Obligations.SettleReleasesAndWaits : Prop :=
  ∀ s : State,
    (s.st = 2 → lineOe s = false) ∧
    (s.cnt + 1 = s.build.releaseSettle → exec .settle s = .next { s with st := 3, cnt := 0 }) ∧
    (s.cnt + 1 ≠ s.build.releaseSettle → exec .settle s = .next { s with cnt := (s.cnt + 1) % 2 ^ s.build.cw })

/-- R106: RESP polls for LOW; the HIGH sample taken while `cnt` = TIMEOUT raises code 3. -/
def Obligations.ResponseWaitRule : Prop :=
  ∀ s : State,
    (sample s = .low → exec .resp s = .next { s with st := 4, cnt := 0 }) ∧
    (sample s = .high → s.cnt = s.build.timeout →
      exec .resp s = .next { s with st := 0, doneQ := true, okQ := false, errQ := 3, ebQ := 0, ebitQ := 0 }) ∧
    (sample s = .high → s.cnt ≠ s.build.timeout →
      exec .resp s = .next { s with cnt := (s.cnt + 1) % 2 ^ s.build.cw })

/-- R130: CAL counts LOW; the HIGH sample writes the threshold `(cnt * 50) div 80`; the LOW sample taken while
`cnt` = TIMEOUT raises code 4. -/
def Obligations.CalibrationRule : Prop :=
  ∀ s : State,
    (sample s = .high →
      exec .cal s = .next { s with st := 5, cnt := 0, thr := (s.cnt * 50 / 80) % 2 ^ s.build.cw }) ∧
    (sample s = .low → s.cnt = s.build.timeout →
      exec .cal s = .next { s with st := 0, doneQ := true, okQ := false, errQ := 4, ebQ := 0, ebitQ := 0 }) ∧
    (sample s = .low → s.cnt ≠ s.build.timeout →
      exec .cal s = .next { s with cnt := (s.cnt + 1) % 2 ^ s.build.cw })

/-- R150: FSTART polls for LOW; the HIGH sample taken while `cnt` = TIMEOUT raises code 5. -/
def Obligations.FrameStartRule : Prop :=
  ∀ s : State,
    (sample s = .low → exec .fstart s = .next { s with st := 6, cnt := 0 }) ∧
    (sample s = .high → s.cnt = s.build.timeout →
      exec .fstart s = .next { s with st := 0, doneQ := true, okQ := false, errQ := 5, ebQ := 0, ebitQ := 0 }) ∧
    (sample s = .high → s.cnt ≠ s.build.timeout →
      exec .fstart s = .next { s with cnt := (s.cnt + 1) % 2 ^ s.build.cw })

/-- R151: BITRISE holds `cnt` at 0 and leaves on the first HIGH sample; a LOW sample never ends it. -/
def Obligations.RisingEdgeRule : Prop :=
  ∀ s : State,
    (sample s = .high → exec .bitrise s = .next { s with st := 7, cnt := 0 }) ∧
    (sample s = .low → exec .bitrise s = .next { s with cnt := 0 })

/-- R152: BITHIGH counts HIGH; the LOW sample shifts in the bit `cnt > thr` and goes on to the next bit, or to VALIDATE
after `idx` = 39; the HIGH sample taken while `cnt` = TIMEOUT raises code 6 with the bit's position. -/
def Obligations.BitRecordingRule : Prop :=
  ∀ s : State,
    (sample s = .low → s.idx ≠ 39 →
      exec .bithigh s = .next { s with
        st := 6, cnt := 0, idx := s.idx + 1,
        frame := s.frame.extractLsb' 0 39 ++ (if s.thr < s.cnt then 1#1 else 0#1) }) ∧
    (sample s = .low → s.idx = 39 →
      exec .bithigh s = .next { s with
        st := 8, cnt := 0,
        frame := s.frame.extractLsb' 0 39 ++ (if s.thr < s.cnt then 1#1 else 0#1) }) ∧
    (sample s = .high → s.cnt = s.build.timeout →
      exec .bithigh s = .next { s with
        st := 0, doneQ := true, okQ := false, errQ := 6,
        ebQ := s.idx.extractLsb' 3 3, ebitQ := s.idx.extractLsb' 0 3 }) ∧
    (sample s = .high → s.cnt ≠ s.build.timeout →
      exec .bithigh s = .next { s with cnt := (s.cnt + 1) % 2 ^ s.build.cw })

/-- R180: a frame whose first four bytes sum, modulo 256, to the fifth publishes its Reading and finishes with code 0; any
other frame finishes with code 7 and publishes nothing. The bytes are those of 10_state.md R23. -/
def Obligations.ValidationRule : Prop :=
  ∀ (s : State) (b0 b1 b2 b3 b4 : Byte), s.frame = b0 ++ b1 ++ b2 ++ b3 ++ b4 →
    ((b0.toNat + b1.toNat + b2.toNat + b3.toNat) % 256 = b4.toNat →
      exec .validate s = .next { s with
        st := 0, doneQ := true, okQ := true, errQ := 0, ebQ := 0, ebitQ := 0, rdValidQ := true,
        humQ := b0 ++ b1,
        tempQ := if b2.msb then -(BitVec.setWidth 16 (b2.extractLsb' 0 7 ++ b3))
                 else BitVec.setWidth 16 (b2.extractLsb' 0 7 ++ b3) }) ∧
    ((b0.toNat + b1.toNat + b2.toNat + b3.toNat) % 256 ≠ b4.toNat →
      exec .validate s = .next { s with st := 0, doneQ := true, okQ := false, errQ := 7, ebQ := 0, ebitQ := 0 })

/-- R72: an unused code writes `st <- IDLE` and nothing else; its cycle drives nothing and no `done` pulse follows; and
every state rule writes only defined codes. -/
def Obligations.UnusedCodesReturnToIdle : Prop :=
  (∀ (s : State) (code : BitVec 4),
    exec .unused9 s = .next { s with st := 0 } ∧ exec (.unusedAB code) s = .next { s with st := 0 } ∧
    exec (.unusedCF code) s = .next { s with st := 0 }) ∧
  (∀ s t : State, 9 ≤ s.st.toNat → (inputs s).rst = false → step s = .next t →
    t = { s with st := 0, doneQ := false, sync := t.sync, pins := t.pins, cycle := t.cycle } ∧
    lineOe s = false) ∧
  (∀ (s t : State) (i : Instr), exec i s = .next t → t.st = s.st ∨ t.st.toNat ≤ 8)

/-! ## Rules about the whole machine -/

/-- Every instruction answers a next state in every state, and leaves the synchronizer, the parameters and the inputs
alone. -/
def Obligations.EveryInstructionCompletes : Prop :=
  ∀ (i : Instr) (s : State), ∃ t, exec i s = .next t ∧
    t.sync = s.sync ∧ t.build = s.build ∧ t.pins = s.pins ∧ t.cycle = s.cycle

/-- R76: no input and no state stops the block, and no step changes the parameters (00_scope.md R6). -/
def Obligations.NothingTrapsAndParametersStay : Prop :=
  ∀ s : State, ∃ t, step s = .next t ∧ t.build = s.build

/-- The columns "written by" of 10_state.md R22 and R24: each register is written only by the rules named there. `st` may
change in every rule. -/
def Obligations.RegistersAreWrittenOnlyByTheirRules : Prop :=
  ∀ (i : Instr) (s t : State), exec i s = .next t →
    (i ∉ [.startReq, .start, .settle, .resp, .cal, .fstart, .bitrise, .bithigh] → t.cnt = s.cnt) ∧
    (i ∉ [.startReq, .cal] → t.thr = s.thr) ∧
    (i ∉ [.startReq, .bithigh] → t.idx = s.idx ∧ t.frame = s.frame) ∧
    (i ≠ .validate → t.humQ = s.humQ ∧ t.tempQ = s.tempQ ∧ t.rdValidQ = s.rdValidQ) ∧
    (i ∉ [.startReq, .resp, .cal, .fstart, .bithigh, .validate] →
      t.doneQ = s.doneQ ∧ t.okQ = s.okQ ∧ t.errQ = s.errQ ∧ t.ebQ = s.ebQ ∧ t.ebitQ = s.ebitQ)

/-- R240: a cycle with `rst` = 1 gives every register its reset value whatever the state and `start`; a line driven in
that cycle stays driven in it and is released in the next. The parameters stay. -/
def Obligations.ResetOverridesEveryStateRule : Prop :=
  ∀ s : State, (inputs s).rst = true →
    ∃ t, step s = .next t ∧
      t.st = 0 ∧ t.cnt = 0 ∧ t.thr = 0 ∧ t.idx = 0 ∧ t.frame = 0 ∧ t.sync = List.replicate s.build.syncStages .high ∧
      t.humQ = 0 ∧ t.tempQ = 0 ∧ t.rdValidQ = false ∧ t.doneQ = false ∧ t.okQ = false ∧
      t.errQ = 0 ∧ t.ebQ = 0 ∧ t.ebitQ = 0 ∧ t.build = s.build ∧
      (s.st = 1 → lineOe s = true ∧ lineLevel s = .low) ∧ lineOe t = false

/-- R32: the reset value of every register, in every build; the line is released, and `busy` and `done` are 0. -/
def Obligations.ResetValuesOfEveryRegister : Prop :=
  ∀ s : State, s = State.reset ∨ (∃ b : Build, s = State.resetOf b) →
    s.st = 0 ∧ s.cnt = 0 ∧ s.thr = 0 ∧ s.idx = 0 ∧ s.frame = 0 ∧
    s.sync.length = s.build.syncStages ∧ (∀ l ∈ s.sync, l = .high) ∧
    s.humQ = 0 ∧ s.tempQ = 0 ∧ s.rdValidQ = false ∧ s.doneQ = false ∧ s.okQ = false ∧
    s.errQ = 0 ∧ s.ebQ = 0 ∧ s.ebitQ = 0 ∧
    (outputs s).lineOe = false ∧ (outputs s).busy = false ∧ (outputs s).done = false

/-- R27: the combinational outputs are functions of `st` alone, and the line is driven exactly in START, only LOW. -/
def Obligations.CombinationalOutputsFollowTheState : Prop :=
  ∀ s : State, ((outputs s).lineOe = true ↔ s.st = 1) ∧ (outputs s).lineOut = 0 ∧
    ((outputs s).busy = true ↔ s.st ≠ 0)

/-- R52: the line is LOW while the block drives it and is the sensor's level otherwise; while it is driven, the sensor's
level has no effect at all on the cycle. -/
def Obligations.SensorHasNoEffectWhileTheLineIsDriven : Prop :=
  (∀ s : State, lineLevel s = if s.st = 1 then .low else (inputs s).sensor) ∧
  ∀ (s : State) (p : Inputs) (later : List Inputs) (l : Level), s.st = 1 → s.pins = p :: later →
    step { s with pins := { p with sensor := l } :: later } = step s

/-- R64: a `start` seen while `busy` = 1 has no effect. -/
def Obligations.RequestWhileBusyHasNoEffect : Prop :=
  ∀ (s : State) (p : Inputs) (later : List Inputs) (b : Bool), s.st ≠ 0 → s.pins = p :: later →
    step { s with pins := { p with start := b } :: later } = step s

/-- R216: IDLE with `start` = 0 changes nothing but `done_q`, which is cleared, and the synchronizer; the line is
released. -/
def Obligations.IdleWithoutRequestIsQuiescent : Prop :=
  ∀ s : State, s.st = 0 → (inputs s).start = false → (inputs s).rst = false →
    step s = .next { s with doneQ := false, sync := ((inputs s).sensor :: s.sync).take s.build.syncStages,
                            pins := s.pins.tail, cycle := s.cycle + 1 } ∧
    lineOe s = false

/-- R207: in the cycle of a `done` pulse the engine is in IDLE, and a `start` seen in it is accepted or answered by
BusBusyError; with `rst` = 1 it is ignored. `Inv` rules out states with `done` outside IDLE. -/
def Obligations.RequestInTheCycleOfDone : Prop :=
  ∀ s : State, Inv s → s.doneQ = true → (inputs s).start = true →
    s.st = 0 ∧
    ((inputs s).rst = false → sample s = .low →
      ∃ t, step s = .next t ∧ t.st = 0 ∧ t.doneQ = true ∧ t.errQ = 2 ∧ t.okQ = false) ∧
    ((inputs s).rst = false → sample s = .high →
      ∃ t, step s = .next t ∧ t.st = 1 ∧ t.doneQ = false ∧ t.cnt = 0 ∧ t.errQ = s.errQ ∧ t.okQ = s.okQ) ∧
    ((inputs s).rst = true → ∃ t, step s = .next t ∧ t.st = 0 ∧ t.doneQ = false)

/-- R204 and 20_memory.md R60: the result and status registers change only at an edge that sets `done`, and an error
leaves the Reading and `rd_valid` as they were. -/
def Obligations.ResultsChangeOnlyWithDoneAndReadingOnlyOnSuccess : Prop :=
  ∀ s t : State, (inputs s).rst = false → step s = .next t →
    (t.doneQ = false → t.okQ = s.okQ ∧ t.errQ = s.errQ ∧ t.ebQ = s.ebQ ∧ t.ebitQ = s.ebitQ ∧
      t.humQ = s.humQ ∧ t.tempQ = s.tempQ ∧ t.rdValidQ = s.rdValidQ) ∧
    (t.doneQ = true → t.errQ ≠ 0 → t.humQ = s.humQ ∧ t.tempQ = s.tempQ ∧ t.rdValidQ = s.rdValidQ)

/-- R201: a `done` pulse comes from exactly one of seven causes, each with its own code, `ok` and position fields; code 1
is never produced. Success comes from a frame that passes its checksum, and publishes that frame's Reading (R180). Every
outcome returns to IDLE and leaves `cnt`, `thr`, `idx` and `frame` (R200). -/
def Obligations.EachOutcomeHasItsOneCause : Prop :=
  ∀ s t : State, (inputs s).rst = false → step s = .next t → t.doneQ = true →
    t.st = 0 ∧ (t.okQ = true ↔ t.errQ = 0) ∧ t.errQ ≠ 1 ∧
    (t.errQ ≠ 6 → t.ebQ = 0 ∧ t.ebitQ = 0) ∧
    (t.cnt = s.cnt ∧ t.thr = s.thr ∧ t.idx = s.idx ∧ t.frame = s.frame) ∧
    (t.errQ = 0 → s.st = 8 ∧ frameOk s.frame = true ∧ t.rdValidQ = true ∧
      t.humQ = humidity (frameByte s.frame 0) (frameByte s.frame 1) ∧
      t.tempQ = temperature (frameByte s.frame 2) (frameByte s.frame 3)) ∧
    (t.errQ = 2 → s.st = 0 ∧ (inputs s).start = true ∧ sample s = .low) ∧
    (t.errQ = 3 → s.st = 3 ∧ sample s = .high ∧ s.cnt = s.build.timeout) ∧
    (t.errQ = 4 → s.st = 4 ∧ sample s = .low ∧ s.cnt = s.build.timeout) ∧
    (t.errQ = 5 → s.st = 5 ∧ sample s = .high ∧ s.cnt = s.build.timeout) ∧
    (t.errQ = 6 → s.st = 7 ∧ sample s = .high ∧ s.cnt = s.build.timeout ∧
      t.ebQ = s.idx.extractLsb' 3 3 ∧ t.ebitQ = s.idx.extractLsb' 0 3) ∧
    (t.errQ = 7 → s.st = 8 ∧ frameOk s.frame = false)

/-- The phases follow the protocol of 30_encoding.md R70: from each code only itself, the next step of the protocol, or
IDLE where its rule finishes. -/
def Obligations.PhasesFollowTheProtocol : Prop :=
  ∀ s t : State, (inputs s).rst = false → step s = .next t →
    (s.st = 0 → t.st = 0 ∨ (t.st = 1 ∧ (inputs s).start = true ∧ sample s = .high)) ∧
    (s.st = 1 → t.st = 1 ∨ (t.st = 2 ∧ 0 < s.build.releaseSettle) ∨ (t.st = 3 ∧ s.build.releaseSettle = 0)) ∧
    (s.st = 2 → t.st = 2 ∨ t.st = 3) ∧
    (s.st = 3 → t.st = 3 ∨ t.st = 4 ∨ t.st = 0) ∧
    (s.st = 4 → t.st = 4 ∨ t.st = 5 ∨ t.st = 0) ∧
    (s.st = 5 → t.st = 5 ∨ t.st = 6 ∨ t.st = 0) ∧
    (s.st = 6 → t.st = 6 ∨ t.st = 7) ∧
    (s.st = 7 → t.st = 7 ∨ (t.st = 6 ∧ s.idx ≠ 39) ∨ (t.st = 8 ∧ s.idx = 39) ∨ t.st = 0) ∧
    (s.st = 8 → t.st = 0)

/-- What is in `frame` and `thr` reaches no output port at the end of a cycle that does not validate (10_state.md R30,
60_exceptions.md R204). -/
def Obligations.FrameAndThresholdReachNoOutputBeforeValidation : Prop :=
  ∀ (s t t' : State) (f : BitVec 40) (v : Nat), s.st ≠ 8 →
    step s = .next t → step { s with frame := f, thr := v } = .next t' → outputs t = outputs t'

/-- R212: no counter wraps. From a state of the invariant, in a build whose counters fit, a cycle without reset that
ends in IDLE leaves `cnt` as it is; one that stays in a phase other than BITRISE counts it up by exactly 1; and it is
cleared only in BITRISE and where a phase is entered. The count stays within the bound of its phase. `thr` is written only by
CAL's exit, exactly, and by acceptance. A reset clears both. -/
def Obligations.CountersNeverWrap : Prop :=
  ∀ s t : State, Inv s → s.build.fits → step s = .next t →
    ((inputs s).rst = true → t.cnt = 0 ∧ t.thr = 0) ∧
    ((inputs s).rst = false →
      t.cnt = (if t.st = 0 then s.cnt else if t.st = s.st ∧ s.st ≠ 6 then s.cnt + 1 else 0) ∧
      t.thr = (if s.st = 4 ∧ t.st = 5 then s.cnt * 50 / 80 else if s.st = 0 ∧ t.st = 1 then 0 else s.thr)) ∧
    (t.st = 1 → t.cnt ≤ s.build.startHold - 1) ∧ (t.st = 2 → t.cnt ≤ s.build.releaseSettle - 1) ∧
    (t.st = 3 ∨ t.st = 4 ∨ t.st = 5 ∨ t.st = 7 → t.cnt ≤ s.build.timeout)

/-! ## The synchronizer -/

/-- R53: S is the last stage, or the line where there is none; every cycle without reset shifts the line in; so S is the
line's level of SYNC_STAGES cycles before. -/
def Obligations.SampleIsTheLineSyncStagesBefore : Prop :=
  (∀ s : State, (s.build.syncStages = 0 → sample s = lineLevel s) ∧
    (s.sync.length = s.build.syncStages → s.build.syncStages ≠ 0 → some (sample s) = s.sync.getLast?)) ∧
  (∀ s t : State, (inputs s).rst = false → s.sync.length = s.build.syncStages → step s = .next t →
    t.sync.length = s.build.syncStages ∧ (∀ l ∈ t.sync[0]?, l = lineLevel s) ∧
    ∀ i, i + 1 < s.build.syncStages → t.sync[i + 1]? = s.sync[i]?) ∧
  ∀ s : State, s.sync.length = s.build.syncStages →
    observes (List.replicate s.build.syncStages none) s = true →
    ∃ t, run s.build.syncStages s = .next t ∧ sample t = lineLevel s

/-- R252: in the first SYNC_STAGES cycles after a reset, S is 1 whatever the line does, and a request passes the
bus-idle check. -/
def Obligations.SampleIsHighInTheWindowAfterReset : Prop :=
  ∀ (s : State) (k : Nat), s.sync = List.replicate s.build.syncStages .high → k < s.build.syncStages →
    observes (List.replicate k none) s = true →
    ∃ t, run k s = .next t ∧ sample t = .high ∧
      exec .startReq t = .next { t with st := 1, cnt := 0, thr := 0, idx := 0, frame := 0 }

/-! ## Runs -/

/-- R107: after a request is accepted in cycle a, START occupies cycles a+1 to a+START_HOLD, SETTLE the next
RELEASE_SETTLE cycles, and RESP takes its first poll in the cycle after them. -/
def Obligations.HandshakeTimeline : Prop :=
  ∀ (s : State), s.build.fits → s.st = 0 → (inputs s).start = true → sample s = .high →
    observes (List.replicate (s.build.startHold + s.build.releaseSettle + 1) none) s = true →
    (∀ k, k < s.build.startHold → ∃ t, run (1 + k) s = .next t ∧ t.st = 1 ∧ t.cnt = k) ∧
    (∀ k, k < s.build.releaseSettle →
      ∃ t, run (1 + s.build.startHold + k) s = .next t ∧ t.st = 2 ∧ t.cnt = k) ∧
    ∃ t, run (1 + s.build.startHold + s.build.releaseSettle) s = .next t ∧
      t.st = 3 ∧ t.cnt = 0 ∧ t.thr = 0 ∧ t.idx = 0 ∧ t.frame = 0 ∧ t.doneQ = false

/-- R107 and 70_reset_and_hazards.md R250: RESP's first poll sees the line of SYNC_STAGES cycles before, and the block
drove the line in that cycle exactly when RELEASE_SETTLE < SYNC_STAGES. (With more than RELEASE_SETTLE + START_HOLD stages
that cycle comes before the start pulse.) -/
def Obligations.OwnDriveReachesTheFirstPollExactlyWhenSettleIsTooShort : Prop :=
  ∀ (s : State), s.build.fits → s.st = 0 → (inputs s).start = true → sample s = .high →
    s.sync.length = s.build.syncStages → s.build.syncStages ≤ s.build.startHold + s.build.releaseSettle →
    observes (List.replicate (s.build.startHold + s.build.releaseSettle + 1) none) s = true →
    ∃ u t, run (1 + s.build.startHold + s.build.releaseSettle - s.build.syncStages) s = .next u ∧
      run (1 + s.build.startHold + s.build.releaseSettle) s = .next t ∧ t.st = 3 ∧ t.cnt = 0 ∧
      sample t = lineLevel u ∧ (lineOe u = true ↔ s.build.releaseSettle < s.build.syncStages) ∧
      (s.build.releaseSettle < s.build.syncStages → sample t = .low)

/-- R100: in each of the four bounded waits, TIMEOUT + 1 stay samples from a fresh entry time out in the cycle of the
last one, with the phase's code, and not before. -/
def Obligations.BoundedWaitsTimeOutOnTheLastPoll : Prop :=
  ∀ (s : State) (stay : Level) (code : BitVec 3),
    (s.st = 3 ∧ stay = .high ∧ code = 3) ∨ (s.st = 4 ∧ stay = .low ∧ code = 4) ∨
    (s.st = 5 ∧ stay = .high ∧ code = 5) ∨ (s.st = 7 ∧ stay = .high ∧ code = 6) →
    s.build.fits → s.cnt = 0 → observes (held (s.build.timeout + 1) stay) s = true →
    (∀ n, n ≤ s.build.timeout → ∃ t, run n s = .next t ∧ t.st = s.st ∧ t.cnt = n ∧ (0 < n → t.doneQ = false)) ∧
    ∃ t, run (s.build.timeout + 1) s = .next t ∧ t.st = 0 ∧ t.doneQ = true ∧ t.okQ = false ∧ t.errQ = code ∧
      t.ebQ = (if code = 6 then s.idx.extractLsb' 3 3 else 0) ∧
      t.ebitQ = (if code = 6 then s.idx.extractLsb' 0 3 else 0) ∧
      t.humQ = s.humQ ∧ t.tempQ = s.tempQ ∧ t.rdValidQ = s.rdValidQ

/-- R100: a bounded wait that sees n ≤ TIMEOUT stay samples and then the exit sample exits with the count n, also when
n = TIMEOUT; CAL's threshold comes from that count. -/
def Obligations.BoundedWaitsExitWithTheirCount : Prop :=
  ∀ (s : State) (stay other : Level) (next : BitVec 4) (n : Nat),
    (s.st = 3 ∧ stay = .high ∧ other = .low ∧ next = 4) ∨ (s.st = 4 ∧ stay = .low ∧ other = .high ∧ next = 5) ∨
    (s.st = 5 ∧ stay = .high ∧ other = .low ∧ next = 6) →
    s.build.fits → s.cnt = 0 → n ≤ s.build.timeout → observes (held n stay ++ [some other]) s = true →
    (∃ t, run n s = .next t ∧ t.st = s.st ∧ t.cnt = n) ∧
    ∃ t, run (n + 1) s = .next t ∧ t.st = next ∧ t.cnt = 0 ∧ t.doneQ = false ∧
      t.thr = (if s.st = 4 then n * 50 / 80 else s.thr) ∧ t.idx = s.idx ∧ t.frame = s.frame

/-- R101 and 70_reset_and_hazards.md R253: the wait for a bit's rising edge has no ceiling. However many LOW samples it
sees, the engine stays in BITRISE with `busy` = 1 and no `done`, and every other register of the attempt and every
result holds. -/
def Obligations.RisingEdgeWaitHasNoCeiling : Prop :=
  ∀ (s : State) (n : Nat), s.st = 6 → observes (held n .low) s = true →
    ∃ t, run n s = .next t ∧ t.st = 6 ∧ busy t = true ∧ (0 < n → t.doneQ = false ∧ t.cnt = 0) ∧
      t.idx = s.idx ∧ t.frame = s.frame ∧ t.thr = s.thr ∧ t.okQ = s.okQ ∧ t.errQ = s.errQ ∧ t.ebQ = s.ebQ ∧
      t.ebitQ = s.ebitQ ∧ t.humQ = s.humQ ∧ t.tempQ = s.tempQ ∧ t.rdValidQ = s.rdValidQ

/-- R154: a bit whose HIGH pulse shows M samples, in an attempt whose reference LOW pulse showed N, is 1 exactly when
M − 1 > ((N − 1)·50) div 80. The bit's LOW gap shows `gap` more LOW samples after the one that entered BITRISE. -/
def Obligations.BitIsDecidedByItsPulseWidth : Prop :=
  ∀ (s : State) (gap M N : Nat), s.build.fits → s.st = 6 → s.idx.toNat ≤ 39 →
    1 ≤ N → s.thr = (N - 1) * 50 / 80 → 1 ≤ M → M ≤ s.build.timeout + 1 →
    observes (held gap .low ++ held M .high ++ [some .low]) s = true →
    ∃ t, run (gap + M + 1) s = .next t ∧
      t.frame = s.frame <<< 1 ||| (if (N - 1) * 50 / 80 < M - 1 then 1#40 else 0#40) ∧
      t.thr = s.thr ∧ t.cnt = 0 ∧ t.doneQ = false ∧
      (s.idx.toNat < 39 → t.st = 6 ∧ t.idx.toNat = s.idx.toNat + 1) ∧ (s.idx.toNat = 39 → t.st = 8 ∧ t.idx = 39)

/-- 70_reset_and_hazards.md R258, from RESP on: samples that show a response after d polls, a reference LOW pulse of N
samples, a response HIGH pulse of h, the bits that are still missing, and a closing LOW, are read to the end in
d + N + h + Σ(l + M) + 2 cycles, and the outcome is that of the frame so decoded. An attempt enters RESP with
`idx` = 0 and 40 bits missing. -/
def Obligations.ReadFromTheResponseOn : Prop :=
  ∀ (s : State) (d N h : Nat) (pulses : List BitPulse) (frame : BitVec 40),
    s.build.fits → s.st = 3 → s.cnt = 0 → pulses ≠ [] → s.idx.toNat + pulses.length = 40 →
    d ≤ s.build.timeout → 1 ≤ N → N ≤ s.build.timeout + 1 → 1 ≤ h → h ≤ s.build.timeout + 1 →
    (∀ p ∈ pulses, p.readable s.build) →
    frame = shiftInAll s.frame (pulses.map fun p => decide ((N - 1) * 50 / 80 < p.high - 1)) →
    observes (held d .high ++ held N .low ++ held h .high ++ bitSamples pulses ++ [some .low, none]) s = true →
    ∃ t, run (d + N + h + pulseCycles pulses + 2) s = .next t ∧
      t.st = 0 ∧ t.doneQ = true ∧ t.frame = frame ∧ t.thr = (N - 1) * 50 / 80 ∧ t.idx = 39 ∧
      (frameOk frame = true → t.okQ = true ∧ t.errQ = 0 ∧ t.rdValidQ = true ∧
        t.humQ = humidity (frameByte frame 0) (frameByte frame 1) ∧
        t.tempQ = temperature (frameByte frame 2) (frameByte frame 3)) ∧
      (frameOk frame = false → t.okQ = false ∧ t.errQ = 7 ∧ t.rdValidQ = s.rdValidQ ∧ t.humQ = s.humQ ∧
        t.tempQ = s.tempQ)

/-- 70_reset_and_hazards.md R258: an attempt accepted in cycle a on a waveform of 40 readable bits ends with `done` = 1
in cycle a + 1 + START_HOLD + RELEASE_SETTLE + (d + 1) + N + h + Σ(l + M) + 1, with the frame the pulses spell and the
outcome of its checksum. -/
def Obligations.WholeReadAttempt : Prop :=
  ∀ (s : State) (d N h : Nat) (pulses : List BitPulse) (frame : BitVec 40),
    s.build.fits → s.st = 0 → (inputs s).start = true → pulses.length = 40 →
    d ≤ s.build.timeout → 1 ≤ N → N ≤ s.build.timeout + 1 → 1 ≤ h → h ≤ s.build.timeout + 1 →
    (∀ p ∈ pulses, p.readable s.build) →
    frame = shiftInAll 0 (pulses.map fun p => decide ((N - 1) * 50 / 80 < p.high - 1)) →
    observes ([some .high] ++ List.replicate (s.build.startHold + s.build.releaseSettle) none ++ held d .high ++
      held N .low ++ held h .high ++ bitSamples pulses ++ [some .low, none]) s = true →
    ∃ t, run (1 + s.build.startHold + s.build.releaseSettle + (d + 1) + N + h + pulseCycles pulses + 1) s = .next t ∧
      t.st = 0 ∧ t.doneQ = true ∧ t.frame = frame ∧ t.thr = (N - 1) * 50 / 80 ∧
      (frameOk frame = true → t.okQ = true ∧ t.errQ = 0 ∧ t.rdValidQ = true ∧
        t.humQ = humidity (frameByte frame 0) (frameByte frame 1) ∧
        t.tempQ = temperature (frameByte frame 2) (frameByte frame 3)) ∧
      (frameOk frame = false → t.okQ = false ∧ t.errQ = 7 ∧ t.rdValidQ = s.rdValidQ ∧ t.humQ = s.humQ ∧
        t.tempQ = s.tempQ)

/-! ## Data -/

/-- R132: the threshold is `(n * 50) div 80`, exact and rounded toward zero, and its three forms agree. -/
def Obligations.ThresholdFormsAgree : Prop :=
  ∀ n : Nat, threshold n = (n * 50) / 80 ∧ threshold n = (5 * n) / 8 ∧ threshold n = (n + (n <<< 2)) >>> 3

/-- R133: for 0 ≤ n ≤ TIMEOUT the threshold is at most (5·TIMEOUT) div 8, below TIMEOUT, and fits in CW bits; so both
bit values can be decoded. -/
def Obligations.ThresholdRange : Prop :=
  ∀ (b : Build) (n : Nat), 1 ≤ b.timeout → b.fits → n ≤ b.timeout →
    threshold n ≤ (5 * b.timeout) / 8 ∧ (5 * b.timeout) / 8 < b.timeout ∧ threshold n < 2 ^ b.cw ∧
    bitOf b.timeout (threshold n) = true ∧ bitOf 0 (threshold n) = false

/-- R54: of 40 bits shifted in, the k-th received lands in `frame[39 − k]`, which is bit 7 − (k mod 8) of byte k div 8. -/
def Obligations.ReceivedBitsLandInOrder : Prop :=
  ∀ (frame : BitVec 40) (bits : List Bool), bits.length = 40 → ∀ k, k < 40 →
    bits[k]? = some ((bits.foldl shiftIn frame).getLsbD (39 - k)) ∧
    bits[k]? = some ((frameByte (bits.foldl shiftIn frame) (k / 8)).getLsbD (7 - k % 8))

/-- R23: the five bytes lie in `frame` in the order of reception, byte0 in `frame[39:32]` to byte4 in `frame[7:0]`. -/
def Obligations.FrameHoldsTheFiveBytes : Prop :=
  ∀ b0 b1 b2 b3 b4 : Byte,
    frameByte (b0 ++ b1 ++ b2 ++ b3 ++ b4) 0 = b0 ∧ frameByte (b0 ++ b1 ++ b2 ++ b3 ++ b4) 1 = b1 ∧
    frameByte (b0 ++ b1 ++ b2 ++ b3 ++ b4) 2 = b2 ∧ frameByte (b0 ++ b1 ++ b2 ++ b3 ++ b4) 3 = b3 ∧
    frameByte (b0 ++ b1 ++ b2 ++ b3 ++ b4) 4 = b4

/-- R181: the checksum is the exact sum of four bytes modulo 256, and an 8-bit adder chain that drops its carries gives
the same result. -/
def Obligations.ChecksumIsTheSumModulo256 : Prop :=
  ∀ b0 b1 b2 b3 b4 : Byte,
    (checksumOk b0 b1 b2 b3 b4 = true ↔ (b0.toNat + b1.toNat + b2.toNat + b3.toNat) % 256 = b4.toNat) ∧
    (checksumOk b0 b1 b2 b3 b4 = true ↔ b0 + b1 + b2 + b3 = b4)

/-- R182: humidity is `byte0 * 256 + byte1`, unsigned. -/
def Obligations.HumidityIsBigEndian : Prop :=
  ∀ b0 b1 : Byte, (humidity b0 b1).toNat = b0.toNat * 256 + b1.toNat

/-- R183: the temperature is the magnitude `(byte2 & 0x7F) * 256 + byte3`, negated if the top bit of byte2 is set, in two's
complement; negative zero is 0. -/
def Obligations.TemperatureIsSignAndMagnitude : Prop :=
  ∀ b2 b3 : Byte,
    ((b2 &&& 0x80) = 0 → (temperature b2 b3).toInt = ((b2 &&& 0x7F).toNat * 256 + b3.toNat : Nat)) ∧
    ((b2 &&& 0x80) ≠ 0 → (temperature b2 b3).toInt = -(((b2 &&& 0x7F).toNat * 256 + b3.toNat : Nat) : Int)) ∧
    (temperature b2 b3).toInt ≤ 32767 ∧ -32767 ≤ (temperature b2 b3).toInt ∧ temperature 0x80 0x00 = 0

/-- 00_scope.md R6: the bound CW ≥ bitlen(max(TIMEOUT, START_HOLD − 1, RELEASE_SETTLE − 1)) says that each of the three
values is written in CW bits. -/
def Obligations.WidthBoundHoldsEveryCount : Prop :=
  ∀ b : Build, 1 ≤ b.cw →
    (bitlen b.maxCount ≤ b.cw ↔
      b.timeout < 2 ^ b.cw ∧ b.startHold - 1 < 2 ^ b.cw ∧ b.releaseSettle - 1 < 2 ^ b.cw)

/-! ## The invariant -/

/-- Every step keeps the invariant, from every state that has it, in every build whose counters fit. -/
def Obligations.EveryStepKeepsTheInvariant : Prop :=
  ∀ s t : State, s.build.fits → Inv s → step s = .next t → Inv t

/-- Reset has the invariant, in every build, the chip at hand among them; so has the state after any cycle of reset. -/
def Obligations.ResetHasTheInvariant : Prop :=
  (∀ b : Build, Inv (State.resetOf b)) ∧ Inv State.reset ∧
  ∀ s t : State, (inputs s).rst = true → step s = .next t → Inv t
end

