-- ==== Sys2Proof/Laws/Config.lean ====
section
/-! SUPPORT. What the parameter constraints of 00_scope.md R6 give. -/
namespace Sys2Proof

/-- `CW ≥ bitlen(v)` says that `v` is written in CW bits. -/
theorem lt_two_pow_of_bitlen_le {v w : Nat} (h : bitlen v ≤ w) : v < 2 ^ w := by
  unfold bitlen at h
  split at h
  · next hv => subst hv; exact Nat.two_pow_pos w
  · next hv => exact (Nat.log2_lt hv).mp (by omega)

/-- The bound is met by every width that holds the value, but for the width 0. -/
theorem bitlen_le_of_lt {v w : Nat} (hw : 1 ≤ w) (h : v < 2 ^ w) : bitlen v ≤ w := by
  unfold bitlen
  split
  · exact hw
  · next hv => exact (Nat.log2_lt hv).mpr h

theorem Build.fits.timeout_lt {b : Build} (h : b.fits) : b.timeout < 2 ^ b.cw :=
  lt_of_le_of_lt (le_max_left _ _) (lt_two_pow_of_bitlen_le h.2)

theorem Build.fits.startHold_lt {b : Build} (h : b.fits) : b.startHold - 1 < 2 ^ b.cw :=
  lt_of_le_of_lt (le_trans (le_max_left _ _) (le_max_right _ _)) (lt_two_pow_of_bitlen_le h.2)

theorem Build.fits.releaseSettle_lt {b : Build} (h : b.fits) : b.releaseSettle - 1 < 2 ^ b.cw :=
  lt_of_le_of_lt (le_trans (le_max_right _ _) (le_max_right _ _)) (lt_two_pow_of_bitlen_le h.2)

end Sys2Proof
end

