-- ==== Sys2Proof/Laws/State.lean ====
section
/-!
SUPPORT. What every update of the state does to every field, each by unfolding once, so that no later proof unfolds an
update.
-/
namespace Sys2Proof.Machine

@[simp] theorem goto_st (p : Phase) (s : State) : (goto p s).st = p.code := rfl
@[simp] theorem goto_cnt (p : Phase) (s : State) : (goto p s).cnt = s.cnt := rfl
@[simp] theorem goto_thr (p : Phase) (s : State) : (goto p s).thr = s.thr := rfl
@[simp] theorem goto_idx (p : Phase) (s : State) : (goto p s).idx = s.idx := rfl
@[simp] theorem goto_frame (p : Phase) (s : State) : (goto p s).frame = s.frame := rfl
@[simp] theorem goto_sync (p : Phase) (s : State) : (goto p s).sync = s.sync := rfl
@[simp] theorem goto_humQ (p : Phase) (s : State) : (goto p s).humQ = s.humQ := rfl
@[simp] theorem goto_tempQ (p : Phase) (s : State) : (goto p s).tempQ = s.tempQ := rfl
@[simp] theorem goto_rdValidQ (p : Phase) (s : State) : (goto p s).rdValidQ = s.rdValidQ := rfl
@[simp] theorem goto_doneQ (p : Phase) (s : State) : (goto p s).doneQ = s.doneQ := rfl
@[simp] theorem goto_okQ (p : Phase) (s : State) : (goto p s).okQ = s.okQ := rfl
@[simp] theorem goto_errQ (p : Phase) (s : State) : (goto p s).errQ = s.errQ := rfl
@[simp] theorem goto_ebQ (p : Phase) (s : State) : (goto p s).ebQ = s.ebQ := rfl
@[simp] theorem goto_ebitQ (p : Phase) (s : State) : (goto p s).ebitQ = s.ebitQ := rfl
@[simp] theorem goto_build (p : Phase) (s : State) : (goto p s).build = s.build := rfl
@[simp] theorem goto_pins (p : Phase) (s : State) : (goto p s).pins = s.pins := rfl
@[simp] theorem goto_cycle (p : Phase) (s : State) : (goto p s).cycle = s.cycle := rfl

@[simp] theorem clearCnt_st (s : State) : (clearCnt s).st = s.st := rfl
@[simp] theorem clearCnt_cnt (s : State) : (clearCnt s).cnt = 0 := rfl
@[simp] theorem clearCnt_thr (s : State) : (clearCnt s).thr = s.thr := rfl
@[simp] theorem clearCnt_idx (s : State) : (clearCnt s).idx = s.idx := rfl
@[simp] theorem clearCnt_frame (s : State) : (clearCnt s).frame = s.frame := rfl
@[simp] theorem clearCnt_sync (s : State) : (clearCnt s).sync = s.sync := rfl
@[simp] theorem clearCnt_humQ (s : State) : (clearCnt s).humQ = s.humQ := rfl
@[simp] theorem clearCnt_tempQ (s : State) : (clearCnt s).tempQ = s.tempQ := rfl
@[simp] theorem clearCnt_rdValidQ (s : State) : (clearCnt s).rdValidQ = s.rdValidQ := rfl
@[simp] theorem clearCnt_doneQ (s : State) : (clearCnt s).doneQ = s.doneQ := rfl
@[simp] theorem clearCnt_okQ (s : State) : (clearCnt s).okQ = s.okQ := rfl
@[simp] theorem clearCnt_errQ (s : State) : (clearCnt s).errQ = s.errQ := rfl
@[simp] theorem clearCnt_ebQ (s : State) : (clearCnt s).ebQ = s.ebQ := rfl
@[simp] theorem clearCnt_ebitQ (s : State) : (clearCnt s).ebitQ = s.ebitQ := rfl
@[simp] theorem clearCnt_build (s : State) : (clearCnt s).build = s.build := rfl
@[simp] theorem clearCnt_pins (s : State) : (clearCnt s).pins = s.pins := rfl
@[simp] theorem clearCnt_cycle (s : State) : (clearCnt s).cycle = s.cycle := rfl

@[simp] theorem countUp_st (s : State) : (countUp s).st = s.st := rfl
@[simp] theorem countUp_cnt (s : State) : (countUp s).cnt = keepCW s.build (s.cnt + 1) := rfl
@[simp] theorem countUp_thr (s : State) : (countUp s).thr = s.thr := rfl
@[simp] theorem countUp_idx (s : State) : (countUp s).idx = s.idx := rfl
@[simp] theorem countUp_frame (s : State) : (countUp s).frame = s.frame := rfl
@[simp] theorem countUp_sync (s : State) : (countUp s).sync = s.sync := rfl
@[simp] theorem countUp_humQ (s : State) : (countUp s).humQ = s.humQ := rfl
@[simp] theorem countUp_tempQ (s : State) : (countUp s).tempQ = s.tempQ := rfl
@[simp] theorem countUp_rdValidQ (s : State) : (countUp s).rdValidQ = s.rdValidQ := rfl
@[simp] theorem countUp_doneQ (s : State) : (countUp s).doneQ = s.doneQ := rfl
@[simp] theorem countUp_okQ (s : State) : (countUp s).okQ = s.okQ := rfl
@[simp] theorem countUp_errQ (s : State) : (countUp s).errQ = s.errQ := rfl
@[simp] theorem countUp_ebQ (s : State) : (countUp s).ebQ = s.ebQ := rfl
@[simp] theorem countUp_ebitQ (s : State) : (countUp s).ebitQ = s.ebitQ := rfl
@[simp] theorem countUp_build (s : State) : (countUp s).build = s.build := rfl
@[simp] theorem countUp_pins (s : State) : (countUp s).pins = s.pins := rfl
@[simp] theorem countUp_cycle (s : State) : (countUp s).cycle = s.cycle := rfl

@[simp] theorem writeThr_st (v : Nat) (s : State) : (writeThr v s).st = s.st := rfl
@[simp] theorem writeThr_cnt (v : Nat) (s : State) : (writeThr v s).cnt = s.cnt := rfl
@[simp] theorem writeThr_thr (v : Nat) (s : State) : (writeThr v s).thr = keepCW s.build v := rfl
@[simp] theorem writeThr_idx (v : Nat) (s : State) : (writeThr v s).idx = s.idx := rfl
@[simp] theorem writeThr_frame (v : Nat) (s : State) : (writeThr v s).frame = s.frame := rfl
@[simp] theorem writeThr_sync (v : Nat) (s : State) : (writeThr v s).sync = s.sync := rfl
@[simp] theorem writeThr_humQ (v : Nat) (s : State) : (writeThr v s).humQ = s.humQ := rfl
@[simp] theorem writeThr_tempQ (v : Nat) (s : State) : (writeThr v s).tempQ = s.tempQ := rfl
@[simp] theorem writeThr_rdValidQ (v : Nat) (s : State) : (writeThr v s).rdValidQ = s.rdValidQ := rfl
@[simp] theorem writeThr_doneQ (v : Nat) (s : State) : (writeThr v s).doneQ = s.doneQ := rfl
@[simp] theorem writeThr_okQ (v : Nat) (s : State) : (writeThr v s).okQ = s.okQ := rfl
@[simp] theorem writeThr_errQ (v : Nat) (s : State) : (writeThr v s).errQ = s.errQ := rfl
@[simp] theorem writeThr_ebQ (v : Nat) (s : State) : (writeThr v s).ebQ = s.ebQ := rfl
@[simp] theorem writeThr_ebitQ (v : Nat) (s : State) : (writeThr v s).ebitQ = s.ebitQ := rfl
@[simp] theorem writeThr_build (v : Nat) (s : State) : (writeThr v s).build = s.build := rfl
@[simp] theorem writeThr_pins (v : Nat) (s : State) : (writeThr v s).pins = s.pins := rfl
@[simp] theorem writeThr_cycle (v : Nat) (s : State) : (writeThr v s).cycle = s.cycle := rfl

@[simp] theorem finish_st (c e b : BitVec 3) (s : State) : (finish c e b s).st = Phase.idle.code := rfl
@[simp] theorem finish_cnt (c e b : BitVec 3) (s : State) : (finish c e b s).cnt = s.cnt := rfl
@[simp] theorem finish_thr (c e b : BitVec 3) (s : State) : (finish c e b s).thr = s.thr := rfl
@[simp] theorem finish_idx (c e b : BitVec 3) (s : State) : (finish c e b s).idx = s.idx := rfl
@[simp] theorem finish_frame (c e b : BitVec 3) (s : State) : (finish c e b s).frame = s.frame := rfl
@[simp] theorem finish_sync (c e b : BitVec 3) (s : State) : (finish c e b s).sync = s.sync := rfl
@[simp] theorem finish_humQ (c e b : BitVec 3) (s : State) : (finish c e b s).humQ = s.humQ := rfl
@[simp] theorem finish_tempQ (c e b : BitVec 3) (s : State) : (finish c e b s).tempQ = s.tempQ := rfl
@[simp] theorem finish_rdValidQ (c e b : BitVec 3) (s : State) : (finish c e b s).rdValidQ = s.rdValidQ := rfl
@[simp] theorem finish_doneQ (c e b : BitVec 3) (s : State) : (finish c e b s).doneQ = true := rfl
@[simp] theorem finish_okQ (c e b : BitVec 3) (s : State) : (finish c e b s).okQ = okOf c := rfl
@[simp] theorem finish_errQ (c e b : BitVec 3) (s : State) : (finish c e b s).errQ = c := rfl
@[simp] theorem finish_ebQ (c e b : BitVec 3) (s : State) : (finish c e b s).ebQ = e := rfl
@[simp] theorem finish_ebitQ (c e b : BitVec 3) (s : State) : (finish c e b s).ebitQ = b := rfl
@[simp] theorem finish_build (c e b : BitVec 3) (s : State) : (finish c e b s).build = s.build := rfl
@[simp] theorem finish_pins (c e b : BitVec 3) (s : State) : (finish c e b s).pins = s.pins := rfl
@[simp] theorem finish_cycle (c e b : BitVec 3) (s : State) : (finish c e b s).cycle = s.cycle := rfl

@[simp] theorem accept_st (s : State) : (accept s).st = Phase.start.code := rfl
@[simp] theorem accept_cnt (s : State) : (accept s).cnt = 0 := rfl
@[simp] theorem accept_thr (s : State) : (accept s).thr = 0 := rfl
@[simp] theorem accept_idx (s : State) : (accept s).idx = 0 := rfl
@[simp] theorem accept_frame (s : State) : (accept s).frame = 0 := rfl
@[simp] theorem accept_sync (s : State) : (accept s).sync = s.sync := rfl
@[simp] theorem accept_humQ (s : State) : (accept s).humQ = s.humQ := rfl
@[simp] theorem accept_tempQ (s : State) : (accept s).tempQ = s.tempQ := rfl
@[simp] theorem accept_rdValidQ (s : State) : (accept s).rdValidQ = s.rdValidQ := rfl
@[simp] theorem accept_doneQ (s : State) : (accept s).doneQ = s.doneQ := rfl
@[simp] theorem accept_okQ (s : State) : (accept s).okQ = s.okQ := rfl
@[simp] theorem accept_errQ (s : State) : (accept s).errQ = s.errQ := rfl
@[simp] theorem accept_ebQ (s : State) : (accept s).ebQ = s.ebQ := rfl
@[simp] theorem accept_ebitQ (s : State) : (accept s).ebitQ = s.ebitQ := rfl
@[simp] theorem accept_build (s : State) : (accept s).build = s.build := rfl
@[simp] theorem accept_pins (s : State) : (accept s).pins = s.pins := rfl
@[simp] theorem accept_cycle (s : State) : (accept s).cycle = s.cycle := rfl

@[simp] theorem recordBit_st (s : State) : (recordBit s).st = (if s.idx = 39 then Phase.validate.code else Phase.bitrise.code) := rfl
@[simp] theorem recordBit_cnt (s : State) : (recordBit s).cnt = 0 := rfl
@[simp] theorem recordBit_thr (s : State) : (recordBit s).thr = s.thr := rfl
@[simp] theorem recordBit_idx (s : State) : (recordBit s).idx = (if s.idx = 39 then s.idx else s.idx + 1) := rfl
@[simp] theorem recordBit_frame (s : State) : (recordBit s).frame = shiftIn s.frame (bitOf s.cnt s.thr) := rfl
@[simp] theorem recordBit_sync (s : State) : (recordBit s).sync = s.sync := rfl
@[simp] theorem recordBit_humQ (s : State) : (recordBit s).humQ = s.humQ := rfl
@[simp] theorem recordBit_tempQ (s : State) : (recordBit s).tempQ = s.tempQ := rfl
@[simp] theorem recordBit_rdValidQ (s : State) : (recordBit s).rdValidQ = s.rdValidQ := rfl
@[simp] theorem recordBit_doneQ (s : State) : (recordBit s).doneQ = s.doneQ := rfl
@[simp] theorem recordBit_okQ (s : State) : (recordBit s).okQ = s.okQ := rfl
@[simp] theorem recordBit_errQ (s : State) : (recordBit s).errQ = s.errQ := rfl
@[simp] theorem recordBit_ebQ (s : State) : (recordBit s).ebQ = s.ebQ := rfl
@[simp] theorem recordBit_ebitQ (s : State) : (recordBit s).ebitQ = s.ebitQ := rfl
@[simp] theorem recordBit_build (s : State) : (recordBit s).build = s.build := rfl
@[simp] theorem recordBit_pins (s : State) : (recordBit s).pins = s.pins := rfl
@[simp] theorem recordBit_cycle (s : State) : (recordBit s).cycle = s.cycle := rfl

@[simp] theorem publish_st (s : State) : (publish s).st = s.st := rfl
@[simp] theorem publish_cnt (s : State) : (publish s).cnt = s.cnt := rfl
@[simp] theorem publish_thr (s : State) : (publish s).thr = s.thr := rfl
@[simp] theorem publish_idx (s : State) : (publish s).idx = s.idx := rfl
@[simp] theorem publish_frame (s : State) : (publish s).frame = s.frame := rfl
@[simp] theorem publish_sync (s : State) : (publish s).sync = s.sync := rfl
@[simp] theorem publish_humQ (s : State) : (publish s).humQ = humidity (frameByte s.frame 0) (frameByte s.frame 1) := rfl
@[simp] theorem publish_tempQ (s : State) : (publish s).tempQ = temperature (frameByte s.frame 2) (frameByte s.frame 3) := rfl
@[simp] theorem publish_rdValidQ (s : State) : (publish s).rdValidQ = true := rfl
@[simp] theorem publish_doneQ (s : State) : (publish s).doneQ = s.doneQ := rfl
@[simp] theorem publish_okQ (s : State) : (publish s).okQ = s.okQ := rfl
@[simp] theorem publish_errQ (s : State) : (publish s).errQ = s.errQ := rfl
@[simp] theorem publish_ebQ (s : State) : (publish s).ebQ = s.ebQ := rfl
@[simp] theorem publish_ebitQ (s : State) : (publish s).ebitQ = s.ebitQ := rfl
@[simp] theorem publish_build (s : State) : (publish s).build = s.build := rfl
@[simp] theorem publish_pins (s : State) : (publish s).pins = s.pins := rfl
@[simp] theorem publish_cycle (s : State) : (publish s).cycle = s.cycle := rfl

@[simp] theorem beginCycle_st (s : State) : (beginCycle s).st = s.st := rfl
@[simp] theorem beginCycle_cnt (s : State) : (beginCycle s).cnt = s.cnt := rfl
@[simp] theorem beginCycle_thr (s : State) : (beginCycle s).thr = s.thr := rfl
@[simp] theorem beginCycle_idx (s : State) : (beginCycle s).idx = s.idx := rfl
@[simp] theorem beginCycle_frame (s : State) : (beginCycle s).frame = s.frame := rfl
@[simp] theorem beginCycle_sync (s : State) : (beginCycle s).sync = s.sync := rfl
@[simp] theorem beginCycle_humQ (s : State) : (beginCycle s).humQ = s.humQ := rfl
@[simp] theorem beginCycle_tempQ (s : State) : (beginCycle s).tempQ = s.tempQ := rfl
@[simp] theorem beginCycle_rdValidQ (s : State) : (beginCycle s).rdValidQ = s.rdValidQ := rfl
@[simp] theorem beginCycle_doneQ (s : State) : (beginCycle s).doneQ = false := rfl
@[simp] theorem beginCycle_okQ (s : State) : (beginCycle s).okQ = s.okQ := rfl
@[simp] theorem beginCycle_errQ (s : State) : (beginCycle s).errQ = s.errQ := rfl
@[simp] theorem beginCycle_ebQ (s : State) : (beginCycle s).ebQ = s.ebQ := rfl
@[simp] theorem beginCycle_ebitQ (s : State) : (beginCycle s).ebitQ = s.ebitQ := rfl
@[simp] theorem beginCycle_build (s : State) : (beginCycle s).build = s.build := rfl
@[simp] theorem beginCycle_pins (s : State) : (beginCycle s).pins = s.pins := rfl
@[simp] theorem beginCycle_cycle (s : State) : (beginCycle s).cycle = s.cycle := rfl

@[simp] theorem nextCycle_st (s : State) : (nextCycle s).st = s.st := rfl
@[simp] theorem nextCycle_cnt (s : State) : (nextCycle s).cnt = s.cnt := rfl
@[simp] theorem nextCycle_thr (s : State) : (nextCycle s).thr = s.thr := rfl
@[simp] theorem nextCycle_idx (s : State) : (nextCycle s).idx = s.idx := rfl
@[simp] theorem nextCycle_frame (s : State) : (nextCycle s).frame = s.frame := rfl
@[simp] theorem nextCycle_sync (s : State) : (nextCycle s).sync = s.sync := rfl
@[simp] theorem nextCycle_humQ (s : State) : (nextCycle s).humQ = s.humQ := rfl
@[simp] theorem nextCycle_tempQ (s : State) : (nextCycle s).tempQ = s.tempQ := rfl
@[simp] theorem nextCycle_rdValidQ (s : State) : (nextCycle s).rdValidQ = s.rdValidQ := rfl
@[simp] theorem nextCycle_doneQ (s : State) : (nextCycle s).doneQ = s.doneQ := rfl
@[simp] theorem nextCycle_okQ (s : State) : (nextCycle s).okQ = s.okQ := rfl
@[simp] theorem nextCycle_errQ (s : State) : (nextCycle s).errQ = s.errQ := rfl
@[simp] theorem nextCycle_ebQ (s : State) : (nextCycle s).ebQ = s.ebQ := rfl
@[simp] theorem nextCycle_ebitQ (s : State) : (nextCycle s).ebitQ = s.ebitQ := rfl
@[simp] theorem nextCycle_build (s : State) : (nextCycle s).build = s.build := rfl
@[simp] theorem nextCycle_pins (s : State) : (nextCycle s).pins = s.pins.tail := rfl
@[simp] theorem nextCycle_cycle (s : State) : (nextCycle s).cycle = s.cycle + 1 := rfl

@[simp] theorem resetOf_st (b : Build) : (State.resetOf b).st = Phase.idle.code := rfl
@[simp] theorem resetOf_cnt (b : Build) : (State.resetOf b).cnt = 0 := rfl
@[simp] theorem resetOf_thr (b : Build) : (State.resetOf b).thr = 0 := rfl
@[simp] theorem resetOf_idx (b : Build) : (State.resetOf b).idx = 0 := rfl
@[simp] theorem resetOf_frame (b : Build) : (State.resetOf b).frame = 0 := rfl
@[simp] theorem resetOf_sync (b : Build) : (State.resetOf b).sync = List.replicate b.syncStages .high := rfl
@[simp] theorem resetOf_humQ (b : Build) : (State.resetOf b).humQ = 0 := rfl
@[simp] theorem resetOf_tempQ (b : Build) : (State.resetOf b).tempQ = 0 := rfl
@[simp] theorem resetOf_rdValidQ (b : Build) : (State.resetOf b).rdValidQ = false := rfl
@[simp] theorem resetOf_doneQ (b : Build) : (State.resetOf b).doneQ = false := rfl
@[simp] theorem resetOf_okQ (b : Build) : (State.resetOf b).okQ = false := rfl
@[simp] theorem resetOf_errQ (b : Build) : (State.resetOf b).errQ = 0 := rfl
@[simp] theorem resetOf_ebQ (b : Build) : (State.resetOf b).ebQ = 0 := rfl
@[simp] theorem resetOf_ebitQ (b : Build) : (State.resetOf b).ebitQ = 0 := rfl
@[simp] theorem resetOf_build (b : Build) : (State.resetOf b).build = b := rfl
@[simp] theorem resetOf_pins (b : Build) : (State.resetOf b).pins = [] := rfl
@[simp] theorem resetOf_cycle (b : Build) : (State.resetOf b).cycle = 0 := rfl

@[simp] theorem resetAll_st (s : State) : (resetAll s).st = Phase.idle.code := rfl
@[simp] theorem resetAll_cnt (s : State) : (resetAll s).cnt = 0 := rfl
@[simp] theorem resetAll_thr (s : State) : (resetAll s).thr = 0 := rfl
@[simp] theorem resetAll_idx (s : State) : (resetAll s).idx = 0 := rfl
@[simp] theorem resetAll_frame (s : State) : (resetAll s).frame = 0 := rfl
@[simp] theorem resetAll_sync (s : State) : (resetAll s).sync = List.replicate s.build.syncStages .high := rfl
@[simp] theorem resetAll_humQ (s : State) : (resetAll s).humQ = 0 := rfl
@[simp] theorem resetAll_tempQ (s : State) : (resetAll s).tempQ = 0 := rfl
@[simp] theorem resetAll_rdValidQ (s : State) : (resetAll s).rdValidQ = false := rfl
@[simp] theorem resetAll_doneQ (s : State) : (resetAll s).doneQ = false := rfl
@[simp] theorem resetAll_okQ (s : State) : (resetAll s).okQ = false := rfl
@[simp] theorem resetAll_errQ (s : State) : (resetAll s).errQ = 0 := rfl
@[simp] theorem resetAll_ebQ (s : State) : (resetAll s).ebQ = 0 := rfl
@[simp] theorem resetAll_ebitQ (s : State) : (resetAll s).ebitQ = 0 := rfl
@[simp] theorem resetAll_build (s : State) : (resetAll s).build = s.build := rfl
@[simp] theorem resetAll_pins (s : State) : (resetAll s).pins = s.pins.tail := rfl
@[simp] theorem resetAll_cycle (s : State) : (resetAll s).cycle = s.cycle + 1 := rfl

@[simp] theorem endCycle_st (s t : State) : (endCycle s t).st = t.st := rfl
@[simp] theorem endCycle_cnt (s t : State) : (endCycle s t).cnt = t.cnt := rfl
@[simp] theorem endCycle_thr (s t : State) : (endCycle s t).thr = t.thr := rfl
@[simp] theorem endCycle_idx (s t : State) : (endCycle s t).idx = t.idx := rfl
@[simp] theorem endCycle_frame (s t : State) : (endCycle s t).frame = t.frame := rfl
@[simp] theorem endCycle_sync (s t : State) : (endCycle s t).sync = shiftSync s.build (lineLevel s) s.sync := rfl
@[simp] theorem endCycle_humQ (s t : State) : (endCycle s t).humQ = t.humQ := rfl
@[simp] theorem endCycle_tempQ (s t : State) : (endCycle s t).tempQ = t.tempQ := rfl
@[simp] theorem endCycle_rdValidQ (s t : State) : (endCycle s t).rdValidQ = t.rdValidQ := rfl
@[simp] theorem endCycle_doneQ (s t : State) : (endCycle s t).doneQ = t.doneQ := rfl
@[simp] theorem endCycle_okQ (s t : State) : (endCycle s t).okQ = t.okQ := rfl
@[simp] theorem endCycle_errQ (s t : State) : (endCycle s t).errQ = t.errQ := rfl
@[simp] theorem endCycle_ebQ (s t : State) : (endCycle s t).ebQ = t.ebQ := rfl
@[simp] theorem endCycle_ebitQ (s t : State) : (endCycle s t).ebitQ = t.ebitQ := rfl
@[simp] theorem endCycle_build (s t : State) : (endCycle s t).build = t.build := rfl
@[simp] theorem endCycle_pins (s t : State) : (endCycle s t).pins = t.pins.tail := rfl
@[simp] theorem endCycle_cycle (s t : State) : (endCycle s t).cycle = t.cycle + 1 := rfl

/-- `raise` is `finish` with the error's code and position. -/
@[simp] theorem raise_eq (e : BlockError) (s : State) :
    raise e s = finish (errorCode e) (errorByte e) (errorBit e) s := rfl

end Sys2Proof.Machine
end

