-- ==== Sys2Proof/Laws/Ops.lean ====
section
/-!
SUPPORT. One lemma for each shared operation that says everything it can do, and the lemmas that the operands survive the
start of a cycle.
-/
namespace Sys2Proof.Machine

theorem keepCW_of_lt {b : Build} {v : Nat} (h : v < 2 ^ b.cw) : keepCW b v = v := Nat.mod_eq_of_lt h

theorem keepCW_lt (b : Build) (v : Nat) : keepCW b v < 2 ^ b.cw := Nat.mod_lt _ (Nat.two_pow_pos _)

theorem keepCW_le (b : Build) (v : Nat) : keepCW b v ≤ v := Nat.mod_le _ _

@[simp] theorem inputs_beginCycle (s : State) : inputs (beginCycle s) = inputs s := rfl

@[simp] theorem lineOe_beginCycle (s : State) : lineOe (beginCycle s) = lineOe s := rfl

@[simp] theorem lineLevel_beginCycle (s : State) : lineLevel (beginCycle s) = lineLevel s := rfl

@[simp] theorem sample_beginCycle (s : State) : sample (beginCycle s) = sample s := rfl

@[simp] theorem sample_clearCnt (s : State) : sample (clearCnt s) = sample s := rfl

@[simp] theorem byteIndex_beginCycle (s : State) : byteIndex (beginCycle s) = byteIndex s := rfl

@[simp] theorem bitIndex_beginCycle (s : State) : bitIndex (beginCycle s) = bitIndex s := rfl

theorem Level.eq_low_or_high (l : Level) : l = .low ∨ l = .high := by cases l <;> simp

theorem Level.ne_low {l : Level} : l ≠ .low ↔ l = .high := by cases l <;> simp

theorem Level.ne_high {l : Level} : l ≠ .high ↔ l = .low := by cases l <;> simp

/-- A bounded wait does one of three things: the exit action on the other level, the error on a stay sample at the
ceiling, and one count otherwise. -/
theorem boundedWait_cases (stay : Level) (onExit : State → State) (e : BlockError) (s : State) :
    (sample s ≠ stay ∧ boundedWait stay onExit e s = onExit s) ∨
    (sample s = stay ∧ s.cnt = s.build.timeout ∧ boundedWait stay onExit e s = raise e s) ∨
    (sample s = stay ∧ s.cnt ≠ s.build.timeout ∧ boundedWait stay onExit e s = countUp s) := by
  unfold boundedWait
  by_cases h : sample s = stay
  · by_cases hc : s.cnt = s.build.timeout <;> simp [h, hc]
  · simp [h]

theorem boundedWait_exit {stay : Level} {onExit : State → State} {e : BlockError} {s : State} (h : sample s ≠ stay) :
    boundedWait stay onExit e s = onExit s := by simp [boundedWait, h]

theorem boundedWait_timeout {stay : Level} {onExit : State → State} {e : BlockError} {s : State}
    (h : sample s = stay) (hc : s.cnt = s.build.timeout) : boundedWait stay onExit e s = raise e s := by
  simp [boundedWait, h, hc]

theorem boundedWait_count {stay : Level} {onExit : State → State} {e : BlockError} {s : State}
    (h : sample s = stay) (hc : s.cnt ≠ s.build.timeout) : boundedWait stay onExit e s = countUp s := by
  simp [boundedWait, h, hc]

/-- The unbounded wait does one of two things. -/
theorem unboundedWait_cases (stay : Level) (onExit : State → State) (s : State) :
    (sample s ≠ stay ∧ unboundedWait stay onExit s = onExit s) ∨
    (sample s = stay ∧ unboundedWait stay onExit s = s) := by
  unfold unboundedWait
  by_cases h : sample s = stay <;> simp [h]

/-- The code of the phase after START. -/
@[simp] theorem afterStart_code (b : Build) : (afterStart b).code = if 0 < b.releaseSettle then 2 else 3 := by
  unfold afterStart
  split <;> rfl

theorem shiftSync_length {b : Build} {l : Level} {sync : List Level} (h : sync.length = b.syncStages) :
    (shiftSync b l sync).length = b.syncStages := by
  simp [shiftSync]; omega

end Sys2Proof.Machine
end

