-- ==== Sys2Proof/Laws/Exec.lean ====
section
/-!
SUPPORT. What each meaning and each step can do, once: every meaning answers a next state, what no state rule writes, and
the inversion of `step` that later proofs start from.
-/
namespace Sys2Proof.Machine

/-- The state a state rule gives: the meaning without its outcome. -/
def ruleState (i : Instr) (s : State) : State :=
  match exec i s with
  | .next t => t
  | .fault _ => s
  | .refused _ => s

/-- Every instruction answers a next state, in every state. -/
theorem exec_next (i : Instr) (s : State) : exec i s = .next (ruleState i s) := by
  cases i <;> rfl

theorem ruleState_idle (s : State) : ruleState .idle s = s := rfl

theorem ruleState_startReq (s : State) :
    ruleState .startReq s = if sample s = .low then raise .busBusy s else accept s := rfl

theorem ruleState_start (s : State) :
    ruleState .start s =
      if s.cnt + 1 = s.build.startHold then goto (afterStart s.build) (clearCnt s) else countUp s := rfl

theorem ruleState_settle (s : State) :
    ruleState .settle s = if s.cnt + 1 = s.build.releaseSettle then goto .resp (clearCnt s) else countUp s := rfl

theorem ruleState_resp (s : State) :
    ruleState .resp s = boundedWait .high (fun u => goto .cal (clearCnt u)) .responseTimeout s := rfl

theorem ruleState_cal (s : State) :
    ruleState .cal s =
      boundedWait .low (fun u => goto .fstart (clearCnt (writeThr (threshold u.cnt) u))) .calibrationTimeout s := rfl

theorem ruleState_fstart (s : State) :
    ruleState .fstart s = boundedWait .high (fun u => goto .bitrise (clearCnt u)) .frameStartTimeout s := rfl

theorem ruleState_bitrise (s : State) :
    ruleState .bitrise s = unboundedWait .low (goto .bithigh) (clearCnt s) := rfl

theorem ruleState_bithigh (s : State) :
    ruleState .bithigh s = boundedWait .high recordBit (.bitTimeout (byteIndex s) (bitIndex s)) s := rfl

theorem ruleState_validate (s : State) :
    ruleState .validate s = if frameOk s.frame then finish 0 0 0 (publish s) else raise .checksumMismatch s := rfl

theorem ruleState_unused9 (s : State) : ruleState .unused9 s = goto .idle s := rfl

theorem ruleState_unusedAB (code : BitVec 4) (s : State) : ruleState (.unusedAB code) s = goto .idle s := rfl

theorem ruleState_unusedCF (code : BitVec 4) (s : State) : ruleState (.unusedCF code) s = goto .idle s := rfl

/-- Everything a state rule can do: from `s`, the rule of an instruction gives the third state, under the condition the
constructor names. -/
inductive RuleCase : Instr → State → State → Prop where
  | idle (s) : RuleCase .idle s s
  | busBusy (s) : sample s = .low → RuleCase .startReq s (finish 2 0 0 s)
  | accept (s) : sample s = .high → RuleCase .startReq s (accept s)
  | startEnd (s) : s.cnt + 1 = s.build.startHold →
      RuleCase .start s (goto (afterStart s.build) (clearCnt s))
  | startCount (s) : s.cnt + 1 ≠ s.build.startHold → RuleCase .start s (countUp s)
  | settleEnd (s) : s.cnt + 1 = s.build.releaseSettle → RuleCase .settle s (goto .resp (clearCnt s))
  | settleCount (s) : s.cnt + 1 ≠ s.build.releaseSettle → RuleCase .settle s (countUp s)
  | respExit (s) : sample s = .low → RuleCase .resp s (goto .cal (clearCnt s))
  | respTimeout (s) : sample s = .high → s.cnt = s.build.timeout → RuleCase .resp s (finish 3 0 0 s)
  | respCount (s) : sample s = .high → s.cnt ≠ s.build.timeout → RuleCase .resp s (countUp s)
  | calExit (s) : sample s = .high →
      RuleCase .cal s (goto .fstart (clearCnt (writeThr (threshold s.cnt) s)))
  | calTimeout (s) : sample s = .low → s.cnt = s.build.timeout → RuleCase .cal s (finish 4 0 0 s)
  | calCount (s) : sample s = .low → s.cnt ≠ s.build.timeout → RuleCase .cal s (countUp s)
  | fstartExit (s) : sample s = .low → RuleCase .fstart s (goto .bitrise (clearCnt s))
  | fstartTimeout (s) : sample s = .high → s.cnt = s.build.timeout → RuleCase .fstart s (finish 5 0 0 s)
  | fstartCount (s) : sample s = .high → s.cnt ≠ s.build.timeout → RuleCase .fstart s (countUp s)
  | bitriseExit (s) : sample s = .high → RuleCase .bitrise s (goto .bithigh (clearCnt s))
  | bitriseStay (s) : sample s = .low → RuleCase .bitrise s (clearCnt s)
  | bithighExit (s) : sample s = .low → RuleCase .bithigh s (recordBit s)
  | bithighTimeout (s) : sample s = .high → s.cnt = s.build.timeout →
      RuleCase .bithigh s (finish 6 (byteIndex s) (bitIndex s) s)
  | bithighCount (s) : sample s = .high → s.cnt ≠ s.build.timeout → RuleCase .bithigh s (countUp s)
  | publish (s) : frameOk s.frame = true → RuleCase .validate s (finish 0 0 0 (publish s))
  | mismatch (s) : frameOk s.frame = false → RuleCase .validate s (finish 7 0 0 s)
  | unused9 (s) : RuleCase .unused9 s (goto .idle s)
  | unusedAB (code s) : RuleCase (.unusedAB code) s (goto .idle s)
  | unusedCF (code s) : RuleCase (.unusedCF code) s (goto .idle s)

/-- A state rule does one of the things `RuleCase` lists. -/
theorem ruleState_case (i : Instr) (s : State) : RuleCase i s (ruleState i s) := by
  cases i with
  | idle => exact .idle s
  | startReq =>
    rw [ruleState_startReq]; split
    · exact .busBusy s ‹_›
    · exact .accept s (Level.ne_low.1 ‹_›)
  | start =>
    rw [ruleState_start]; split
    · exact .startEnd s ‹_›
    · exact .startCount s ‹_›
  | settle =>
    rw [ruleState_settle]; split
    · exact .settleEnd s ‹_›
    · exact .settleCount s ‹_›
  | resp =>
    rw [ruleState_resp]
    obtain ⟨a, h⟩ | ⟨a, b, h⟩ | ⟨a, b, h⟩ := boundedWait_cases .high _ _ s <;> rw [h]
    · exact .respExit s (Level.ne_high.1 a)
    · exact .respTimeout s a b
    · exact .respCount s a b
  | cal =>
    rw [ruleState_cal]
    obtain ⟨a, h⟩ | ⟨a, b, h⟩ | ⟨a, b, h⟩ := boundedWait_cases .low _ _ s <;> rw [h]
    · exact .calExit s (Level.ne_low.1 a)
    · exact .calTimeout s a b
    · exact .calCount s a b
  | fstart =>
    rw [ruleState_fstart]
    obtain ⟨a, h⟩ | ⟨a, b, h⟩ | ⟨a, b, h⟩ := boundedWait_cases .high _ _ s <;> rw [h]
    · exact .fstartExit s (Level.ne_high.1 a)
    · exact .fstartTimeout s a b
    · exact .fstartCount s a b
  | bitrise =>
    rw [ruleState_bitrise]
    obtain ⟨a, h⟩ | ⟨a, h⟩ := unboundedWait_cases .low (goto .bithigh) (clearCnt s) <;> rw [h]
    · exact .bitriseExit s (Level.ne_low.1 a)
    · exact .bitriseStay s a
  | bithigh =>
    rw [ruleState_bithigh]
    obtain ⟨a, h⟩ | ⟨a, b, h⟩ | ⟨a, b, h⟩ := boundedWait_cases .high _ _ s <;> rw [h]
    · exact .bithighExit s (Level.ne_high.1 a)
    · exact .bithighTimeout s a b
    · exact .bithighCount s a b
  | validate =>
    rw [ruleState_validate]; split
    · exact .publish s ‹_›
    · exact .mismatch s (Bool.eq_false_iff.2 ‹_›)
  | unused9 => exact .unused9 s
  | unusedAB code => exact .unusedAB code s
  | unusedCF code => exact .unusedCF code s

/-- What no state rule writes: the synchronizer, the parameters and the inputs. -/
theorem ruleState_frame (i : Instr) (s : State) :
    (ruleState i s).sync = s.sync ∧ (ruleState i s).build = s.build ∧ (ruleState i s).pins = s.pins ∧
      (ruleState i s).cycle = s.cycle := by
  have h := ruleState_case i s
  generalize ruleState i s = t at h ⊢
  cases h <;> simp

/-- The state after a cycle. -/
def cycleState (s : State) : State :=
  if (inputs s).rst then resetAll s else endCycle s (ruleState (current s) (beginCycle s))

/-- Every cycle answers a next state. -/
theorem step_next (s : State) : step s = .next (cycleState s) := by
  unfold step cycleState
  split
  · rfl
  · rw [exec_next]

/-- The inversion of a step: a cycle is a reset, or the state rule of `current` with what stands around it. -/
theorem step_cases {s t : State} (h : step s = .next t) :
    ((inputs s).rst = true ∧ t = resetAll s) ∨
    ((inputs s).rst = false ∧ t = endCycle s (ruleState (current s) (beginCycle s))) := by
  rw [step_next] at h
  injection h with h
  unfold cycleState at h
  by_cases hr : (inputs s).rst = true
  · exact .inl ⟨hr, by simpa [hr] using h.symm⟩
  · exact .inr ⟨by simpa using hr, by simpa [hr] using h.symm⟩

theorem step_of_rst {s : State} (h : (inputs s).rst = true) : step s = .next (resetAll s) := by
  simp [step, h]

theorem step_of_run {s : State} (h : (inputs s).rst = false) :
    step s = .next (endCycle s (ruleState (current s) (beginCycle s))) := by
  simp [step, h, exec_next]

/-- The inversion of a cycle without reset, down to what its state rule did. -/
theorem step_rule {s t : State} (hr : (inputs s).rst = false) (h : step s = .next t) :
    ∃ u, RuleCase (current s) (beginCycle s) u ∧ t = endCycle s u := by
  rw [step_of_run hr] at h
  injection h with h
  exact ⟨_, ruleState_case _ _, h.symm⟩

/-- What the cycle's instruction says about `st` and `start`. -/
theorem current_code (s : State) :
    match current s with
    | .idle => s.st = 0 ∧ (inputs s).start = false
    | .startReq => s.st = 0 ∧ (inputs s).start = true
    | .start => s.st = 1
    | .settle => s.st = 2
    | .resp => s.st = 3
    | .cal => s.st = 4
    | .fstart => s.st = 5
    | .bitrise => s.st = 6
    | .bithigh => s.st = 7
    | .validate => s.st = 8
    | .unused9 => s.st = 9
    | .unusedAB _ => 10 ≤ s.st.toNat
    | .unusedCF _ => 12 ≤ s.st.toNat := by
  rcases decodeState_eq (inputs s).start s.st with
    ⟨h, e⟩ | ⟨h, e⟩ | ⟨h, e⟩ | ⟨h, e⟩ | ⟨h, e⟩ | ⟨h, e⟩ | ⟨h, e⟩ | ⟨h, e⟩ | ⟨h, e⟩ | ⟨h, e⟩ | ⟨h, e⟩ | ⟨h, e⟩ <;>
    rw [current, e]
  · cases hs : (inputs s).start <;> exact ⟨h, rfl⟩
  all_goals first | exact h | exact ten_le_of_isCodeAB h | exact twelve_le_of_isCodeCF h

/-- No step changes the parameters of the build. -/
theorem step_build {s t : State} (h : step s = .next t) : t.build = s.build := by
  obtain ⟨-, rfl⟩ | ⟨-, rfl⟩ := step_cases h
  · simp
  · simp [(ruleState_frame _ _).2.1]

end Sys2Proof.Machine
end

