-- ==== Sys2Proof/Laws/Run.lean ====
section
/-!
SUPPORT. Runs cycle by cycle: `run` and `observes` peeled at the first cycle and cut at any, and the cycle of each phase.
-/
namespace Sys2Proof.Machine

/-- The state after `k` cycles. -/
def after : Nat → State → State
  | 0, s => s
  | k + 1, s => after k (cycleState s)

/-- A run of any machine goes on from its next state. -/
theorem core_run_succ (M : Host.Core) (k : Nat) (s t : M.State) (h : M.step s = .next t) :
    M.run (k + 1) s = M.run k t := by
  simp only [Host.Core.run, h]

theorem run_succ (k : Nat) (s : State) : run (k + 1) s = run k (cycleState s) :=
  core_run_succ Sys2Proof.core k s (cycleState s) (step_next s)

/-- A run never stops: it answers the state after its cycles. -/
theorem run_after (k : Nat) (s : State) : run k s = .next (after k s) := by
  induction k generalizing s with
  | zero => rfl
  | succ k ih => rw [run_succ, ih, after]

@[simp] theorem after_zero (s : State) : after 0 s = s := rfl

theorem after_succ (k : Nat) (s : State) : after (k + 1) s = after k (cycleState s) := rfl

theorem after_add (j k : Nat) (s : State) : after (j + k) s = after k (after j s) := by
  induction j generalizing s with
  | zero => simp
  | succ j ih => rw [Nat.succ_add, after_succ, after_succ, ih]

@[simp] theorem observes_nil (s : State) : observes [] s = true := rfl

/-- The first cycle of what a run sees. -/
theorem observes_cons (want : Option Level) (rest : List (Option Level)) (s : State) :
    observes (want :: rest) s = true ↔
      (inputs s).rst = false ∧ (∀ l, want = some l → sample s = l) ∧ observes rest (cycleState s) = true := by
  cases want <;> simp [observes, step_next, Bool.and_eq_true, and_assoc]

/-- What a run sees, cut after any number of cycles. -/
theorem observes_append (l l' : List (Option Level)) (s : State) :
    observes (l ++ l') s = true ↔ observes l s = true ∧ observes l' (after l.length s) = true := by
  induction l generalizing s with
  | nil => simp
  | cons w l ih => simp [observes_cons, ih, after_succ, and_assoc]

theorem observes_held_succ (n : Nat) (l : Level) (s : State) :
    observes (held (n + 1) l) s = true ↔
      (inputs s).rst = false ∧ sample s = l ∧ observes (held n l) (cycleState s) = true := by
  simp [held, List.replicate_succ, observes_cons]

theorem observes_none_succ (n : Nat) (s : State) :
    observes (List.replicate (n + 1) none) s = true ↔
      (inputs s).rst = false ∧ observes (List.replicate n none) (cycleState s) = true := by
  simp [List.replicate_succ, observes_cons]

/-- Seeing certain samples is more than running without reset. -/
theorem observes_weaken {l : List (Option Level)} {s : State} (h : observes l s = true) :
    observes (List.replicate l.length none) s = true := by
  induction l generalizing s with
  | nil => rfl
  | cons w l ih =>
    rw [observes_cons] at h
    rw [List.length_cons, observes_none_succ]
    exact ⟨h.1, ih h.2.2⟩

/-- A cycle without reset. -/
theorem cycleState_of_run {s : State} (h : (inputs s).rst = false) :
    cycleState s = endCycle s (ruleState (current s) (beginCycle s)) := by simp [cycleState, h]

theorem current_of_st {s : State} {c : BitVec 4} (h : s.st = c) : current s = decodeState (inputs s).start c := by
  rw [current, h]

/-- The parameters are the same after any number of cycles. -/
@[simp] theorem cycleState_build (s : State) : (cycleState s).build = s.build := step_build (step_next s)

@[simp] theorem after_build (k : Nat) (s : State) : (after k s).build = s.build := by
  induction k generalizing s with
  | zero => rfl
  | succ k ih => rw [after_succ, ih, cycleState_build]

end Sys2Proof.Machine
end

