-- ==== Sys2Proof/Tests/Slice0.lean ====
section
/-!
SUPPORT. The model's own tests, and for every statement with hypotheses a witness that meets them.

Expected values are the spec's: the opcode table, the tables of 41_calibration.md R134 and 95_test_vectors.md, and the
cycles its programs list. Part 1 tests well-formedness, part 2 decoding, part 3 one step at a time, part 4 data, and
part 5 holds the witnesses.
-/
open Sys2Proof Sys2Proof.Machine
namespace Sys2Proof.Tests

/-- The parameter sets `PA` and `PB` of 95_test_vectors.md, with a clock slow enough for their START_HOLD. -/
def buildPA : Build := ⟨8000, 20, 4, 2, 2, 5⟩
def buildPB : Build := ⟨2000, 3, 1, 0, 0, 2⟩
def buildPC : Build := ⟨2000, 100, 1, 0, 0, 7⟩

/-- The inputs of one cycle: no reset, no request, a sensor level; the same with a request; and a reset. -/
def see (l : Level) : Inputs := ⟨false, false, l⟩
def ask (l : Level) : Inputs := ⟨false, true, l⟩
def rstIn : Inputs := ⟨true, true, .high⟩

/-- A small state: reset values but for the code, the count and the settled inputs. -/
def at' (b : Build) (st : BitVec 4) (cnt : Nat) (pins : List Inputs) : State :=
  { State.resetOf b with st := st, cnt := cnt, pins := pins }

/-- The state an outcome holds, so that two outcomes compare. -/
def nextOf : Host.Outcome State Fault Refusal → Option State
  | .next t => some t
  | .fault _ => none
  | .refused _ => none

/-! ## 1. Well-formedness -/

theorem test_wf_refuses_code_9_in_row_A_B : Instr.wf (.unusedAB 9) = false := by decide

theorem test_wf_refuses_code_11_in_row_C_F : Instr.wf (.unusedCF 11) = false := by decide

/-- Row `UNUSED_A_B` covers the codes 10 and 11, row `UNUSED_C_F` the codes 12 to 15. -/
theorem test_wf_reserved_rows :
    ((List.range 16).filter fun c => Instr.wf (.unusedAB (BitVec.ofNat 4 c))) = [10, 11] ∧
    ((List.range 16).filter fun c => Instr.wf (.unusedCF (BitVec.ofNat 4 c))) = [12, 13, 14, 15] := by decide

/-- The table of `PA` is legal; each constraint of 00_scope.md R6 refuses a build that breaks it. -/
theorem test_build_legal : buildPA.legal ∧ buildPB.legal := by decide

theorem test_build_refuses :
    ¬ Build.fits ⟨2000, 3, 0, 0, 0, 2⟩ ∧ ¬ Build.fits ⟨2000, 4, 1, 0, 0, 2⟩ ∧ ¬ Build.fits ⟨2000, 3, 6, 0, 0, 2⟩ ∧
    ¬ Build.fits ⟨2000, 3, 1, 6, 0, 2⟩ ∧ ¬ Build.legal ⟨0, 3, 1, 0, 0, 2⟩ ∧ ¬ Build.legal ⟨2000, 0, 1, 0, 0, 2⟩ ∧
    ¬ Build.legal ⟨2001, 3, 1, 0, 0, 2⟩ ∧ ¬ Build.legal ⟨8000, 20, 4, 1, 2, 5⟩ := by decide

/-! ## 2. Decoding: one word per constructor, bit by bit from the table (`start` in bit 4, log entry 3) -/

theorem test_decode_idle : decode [0b0000_0000] = .ok (.idle, []) := rfl
theorem test_decode_startReq : decode [0b0001_0000] = .ok (.startReq, []) := rfl
theorem test_decode_start : decode [0b0000_0001] = .ok (.start, []) := rfl
theorem test_decode_settle : decode [0b0000_0010] = .ok (.settle, []) := rfl
theorem test_decode_resp : decode [0b0000_0011] = .ok (.resp, []) := rfl
theorem test_decode_cal : decode [0b0000_0100] = .ok (.cal, []) := rfl
theorem test_decode_fstart : decode [0b0000_0101] = .ok (.fstart, []) := rfl
theorem test_decode_bitrise : decode [0b0000_0110] = .ok (.bitrise, []) := rfl
theorem test_decode_bithigh : decode [0b0000_0111] = .ok (.bithigh, []) := rfl
theorem test_decode_validate : decode [0b0000_1000] = .ok (.validate, []) := rfl
theorem test_decode_unused9 : decode [0b0000_1001] = .ok (.unused9, []) := rfl
theorem test_decode_unusedAB :
    decode [0b0000_1010] = .ok (.unusedAB 10, []) ∧ decode [0b0000_1011] = .ok (.unusedAB 11, []) := ⟨rfl, rfl⟩
theorem test_decode_unusedCF :
    decode [0b0000_1100] = .ok (.unusedCF 12, []) ∧ decode [0b0000_1111] = .ok (.unusedCF 15, []) := ⟨rfl, rfl⟩

/-- A request in another state encodes nothing (30_encoding.md R75): RESP with `start` = 1 is RESP. -/
theorem test_decode_start_ignored_when_busy : decode [0b0001_0011] = .ok (.resp, []) := rfl

theorem test_decode_refuses : decode [0b0010_0000] = .error .reservedBits ∧ decode [0xFF] = .error .reservedBits ∧
    decode [] = .error .noByte := ⟨rfl, rfl, rfl⟩

/-- A word longer than the dispatch word must be zero above it. -/
theorem test_decode_table_word_refuses_high_bits : decodeTableWord 16 0x0104 = none ∧
    decodeTableWord 16 0x0004 = some .cal := by decide

/-! ## 3. One step at a time -/

/-- Program P3: a request on a LOW sample is answered by code 2, and `busy` never becomes 1. -/
theorem test_startReq_bus_busy :
    (nextOf (step { at' buildPA 0 0 [ask .low] with sync := [.low, .low] })).map
      (fun t => (t.st, t.doneQ, t.okQ, t.errQ)) = some (0, true, false, 2) := by decide

/-- Program P1, cycle 2: accepted; `st` is START in cycle 3, and the attempt's registers are cleared. -/
theorem test_startReq_accepted :
    (nextOf (step { at' buildPA 0 7 [ask .high] with thr := 4, idx := 39, frame := 0x028C010493 })).map
      (fun t => (t.st, t.cnt, t.thr, t.idx, t.frame, lineOe t)) = some (1, 0, 0, 0, 0, true) := by decide

/-- IDLE without a request (V-ERR-1): `done` falls, the results stay. -/
theorem test_idle_clears_done :
    (nextOf (step { at' buildPA 0 0 [see .high] with doneQ := true, okQ := true, humQ := 652, rdValidQ := true })).map
      (fun t => (t.st, t.doneQ, t.okQ, t.humQ, t.rdValidQ)) = some (0, false, true, 652, true) := by decide

/-- Program P1, cycle 6: the fourth cycle of START ends it, and SETTLE follows. -/
theorem test_start_ends_in_settle :
    (nextOf (step (at' buildPA 1 3 [see .high]))).map (fun t => (t.st, t.cnt)) = some (2, 0) := by decide

/-- V-HS-4: with `PB`, START lasts one cycle and RESP follows. -/
theorem test_start_ends_in_resp :
    (nextOf (step (at' buildPB 1 0 [see .high]))).map (fun t => (t.st, t.cnt)) = some (3, 0) := by decide

/-- Program P1, cycles 7 and 8. -/
theorem test_settle :
    (nextOf (step (at' buildPA 2 0 [see .high]))).map (fun t => (t.st, t.cnt)) = some (2, 1) ∧
    (nextOf (step (at' buildPA 2 1 [see .high]))).map (fun t => (t.st, t.cnt)) = some (3, 0) := by decide

/-- V-BW-4, cycle 5: LOW while `cnt` = TIMEOUT exits normally. -/
theorem test_resp_exit_at_ceiling :
    (nextOf (step (at' buildPB 3 3 [see .low]))).map (fun t => (t.st, t.cnt, t.doneQ)) = some (4, 0, false) := by decide

/-- V-BW-5, cycle 5: the fourth HIGH sample times out, and `cnt` stays 3. -/
theorem test_resp_timeout :
    (nextOf (step (at' buildPB 3 3 [see .high]))).map (fun t => (t.st, t.cnt, t.doneQ, t.errQ)) =
      some (0, 3, true, 3) := by decide

/-- V-CAL-16: `n` = 65535 gives `thr` = 40959; the product is not wrapped to 16 bits. -/
theorem test_cal_wide_operand :
    (nextOf (step (at' ⟨2000, 65535, 1, 0, 0, 16⟩ 4 65535 [see .high]))).map (fun t => (t.st, t.cnt, t.thr)) =
      some (5, 0, 40959) := by decide

/-- V-BW-10, cycle 7: the fourth LOW sample times out with code 4, and `thr` stays 0. -/
theorem test_cal_timeout :
    (nextOf (step (at' buildPB 4 3 [see .low]))).map (fun t => (t.st, t.doneQ, t.errQ, t.thr)) =
      some (0, true, 4, 0) := by decide

/-- V-BW-12, cycle 9, and V-BW-13, cycle 9: FSTART at its ceiling. -/
theorem test_fstart_at_ceiling :
    (nextOf (step (at' buildPB 5 3 [see .low]))).map (fun t => (t.st, t.cnt)) = some (6, 0) ∧
    (nextOf (step (at' buildPB 5 3 [see .high]))).map (fun t => (t.st, t.doneQ, t.errQ)) = some (0, true, 5) := by
  decide

/-- Program P1, cycle 35: the first HIGH sample ends BITRISE and is not counted. -/
theorem test_bitrise_edge :
    (nextOf (step (at' buildPB 6 0 [see .high]))).map (fun t => (t.st, t.cnt)) = some (7, 0) := by decide

/-- Program P7: a LOW sample leaves BITRISE where it is. -/
theorem test_bitrise_waits :
    (nextOf (step (at' buildPB 6 0 [see .low]))).map (fun t => (t.st, t.cnt, busy t)) = some (6, 0, true) := by decide

/-- V-DEC-1: with `thr` = 50, w = 50 is a 0 and w = 51 is a 1, and `idx` counts the bit. -/
theorem test_bithigh_boundary :
    (nextOf (step { at' buildPC 7 50 [see .low] with thr := 50, frame := 1 })).map (fun t => (t.st, t.idx, t.frame)) =
      some (6, 1, 2) ∧
    (nextOf (step { at' buildPC 7 51 [see .low] with thr := 50, frame := 1, idx := 39 })).map
      (fun t => (t.st, t.idx, t.frame)) = some (8, 39, 3) := by decide

/-- V-DEC-3: the timeout of the last bit has position 4 and 7; program P5: bit 19 has position 2 and 3. -/
theorem test_bithigh_timeout :
    (nextOf (step { at' buildPB 7 3 [see .high] with idx := 39 })).map (fun t => (t.errQ, t.ebQ, t.ebitQ)) =
      some (6, 4, 7) ∧
    (nextOf (step { at' buildPB 7 3 [see .high] with idx := 19 })).map (fun t => (t.errQ, t.ebQ, t.ebitQ)) =
      some (6, 2, 3) := by decide

/-- V-VAL-9: humidity 652, temperature 0xFF9B. -/
theorem test_validate_publishes :
    (nextOf (step { at' buildPB 8 0 [see .low] with frame := 0x028C806573 })).map
      (fun t => (t.st, t.errQ, t.okQ, t.humQ, t.tempQ, t.rdValidQ)) = some (0, 0, true, 652, 0xFF9B, true) := by decide

/-- V-VAL-2: the example as the source prints it fails, and an older Reading stays. -/
theorem test_validate_mismatch :
    (nextOf (step { at' buildPB 8 0 [see .low] with frame := 0x028C010491, humQ := 500, rdValidQ := true })).map
      (fun t => (t.st, t.doneQ, t.errQ, t.okQ, t.humQ, t.rdValidQ)) = some (0, true, 7, false, 500, true) := by decide

/-- 30_encoding.md R72: one cycle back to IDLE, no `done`, and nothing else written. -/
theorem test_unused9 :
    (nextOf (step (at' buildPB 9 2 [ask .low]))).map (fun t => (t.st, t.cnt, t.doneQ, t.errQ)) =
      some (0, 2, false, 0) := by decide
theorem test_unusedAB :
    (nextOf (step (at' buildPB 11 2 [ask .low]))).map (fun t => (t.st, t.cnt, t.doneQ, t.errQ)) =
      some (0, 2, false, 0) := by decide
theorem test_unusedCF :
    (nextOf (step (at' buildPB 12 2 [ask .low]))).map (fun t => (t.st, t.cnt, t.doneQ, t.errQ)) =
      some (0, 2, false, 0) := by decide

/-- V-HS-6: reset during START. The line is driven in that cycle, and every register is at reset in the next. -/
theorem test_reset_during_start :
    lineOe (at' buildPA 1 2 [rstIn]) = true ∧
    nextOf (step { at' buildPA 1 2 [rstIn] with sync := [.low, .low], humQ := 652, rdValidQ := true }) =
      some { State.resetOf buildPA with cycle := 1 } := by decide

/-- 20_memory.md R53: stage 0 takes the line, which the block holds LOW in START, and stage 1 takes stage 0. -/
theorem test_synchronizer_shift :
    (nextOf (step (at' buildPA 1 0 [see .high]))).map (·.sync) = some [.low, .high] ∧
    (nextOf (step { at' buildPA 2 0 [see .high] with sync := [.low, .high] })).map (·.sync) = some [.high, .low] := by
  decide

/-- A placed word runs in the next step (log entry 4). -/
theorem test_withFetchWord :
    (nextOf (step ((at' buildPB 3 1 [see .low]).withFetchWord 8 0x10))).map (fun t => (t.st, t.errQ, t.doneQ)) =
      some (0, 2, true) := by decide

/-! ## 4. Data -/

/-- The table of 41_calibration.md R134. -/
theorem test_threshold_table :
    [0, 1, 2, 3, 4, 5, 6, 7, 8, 15, 16, 79, 80, 81, 160].map threshold =
      [0, 0, 1, 1, 2, 3, 3, 4, 5, 9, 10, 49, 50, 50, 100] := by decide

/-- Vectors V-VAL-3 to V-VAL-8 and V-VAL-10 to V-VAL-12: whether the frame passes, the humidity and the temperature. -/
theorem test_validator_vectors :
    ([0x0000000000, 0xFFFFFFFFFF, 0xFFFFFFFFFC, 0x0000800080, 0x01F400FAEF, 0x8080808000, 0xFF01000000, 0x028C010492,
      0x028C010494, 0x2710000037] : List (BitVec 40)).map frameOk =
      [true, false, true, true, true, true, true, false, false, true] ∧
    (humidity 0xFF 0xFF, humidity 0x27 0x10) = (65535, 10000) ∧
    (temperature 0xFF 0xFF, temperature 0x80 0x00, temperature 0x00 0xFA, temperature 0x80 0x80) =
      (0x8001, 0x0000, 0x00FA, 0xFF80) := by decide

/-! ## 5. Witnesses

One theorem for every statement with hypotheses, named after it, with a state for each of its clauses. -/

theorem witness_DecodingAnEncodedInstructionGivesItBack :
    Instr.wf .idle = true ∧ Instr.wf (.unusedAB 10) = true ∧ Instr.wf (.unusedAB 11) = true ∧
    Instr.wf (.unusedCF 12) = true ∧ Instr.wf (.unusedCF 15) = true := by decide

theorem witness_EveryStateCodeHasOneRowAndItsInstruction :
    (⟨"IDLE", 0xF, 0x0⟩ ∈ stateRows ∧ StateRow.matchesCode ⟨"IDLE", 0xF, 0x0⟩ 0 = true) ∧
    (⟨"UNUSED_C_F", 0xC, 0xC⟩ ∈ stateRows ∧ StateRow.matchesCode ⟨"UNUSED_C_F", 0xC, 0xC⟩ 15 = true) := by
  refine ⟨⟨?_, by decide⟩, ⟨?_, by decide⟩⟩ <;> simp [stateRows]

theorem witness_DecoderKeepsTheCodeAndRefusesOtherBytes :
    BitVec.toNat (31 : Byte) < 32 ∧ 32 ≤ BitVec.toNat (32 : Byte) := by decide

theorem witness_StepRunsTheDecodedInstruction :
    (inputs (at' buildPB 0 0 [ask .high])).rst = false ∧
    decode ((0b000#3 ++ BitVec.ofBool (inputs (at' buildPB 0 0 [ask .high])).start ++
      (at' buildPB 0 0 [ask .high]).st) :: [7]) = .ok (.startReq, [7]) := ⟨rfl, rfl⟩

theorem witness_PlacedWordIsRunByTheNextStep :
    decodeTableWord 8 0x00 = some .idle ∧ decodeTableWord 8 0x0F = some (.unusedCF 15) ∧
    decodeTableWord 4 0x8 = some .validate := by decide

theorem witness_RequestIsCheckedAgainstTheBus :
    sample (at' buildPB 0 0 [ask .low]) = .low ∧ sample (at' buildPB 0 0 [ask .high]) = .high := by decide

theorem witness_StartPulseHoldsTheLineLow :
    let s := at' buildPA 1 3 []
    let r := at' buildPB 1 0 []
    s.st = 1 ∧ (s.cnt + 1 = s.build.startHold ∧ 0 < s.build.releaseSettle) ∧
    (r.cnt + 1 = r.build.startHold ∧ r.build.releaseSettle = 0) ∧
    (at' buildPA 1 2 []).cnt + 1 ≠ buildPA.startHold := by decide

theorem witness_SettleReleasesAndWaits :
    (at' buildPA 2 1 []).st = 2 ∧ (at' buildPA 2 1 []).cnt + 1 = buildPA.releaseSettle ∧
    (at' buildPA 2 0 []).cnt + 1 ≠ buildPA.releaseSettle := by decide

theorem witness_ResponseWaitRule :
    sample (at' buildPB 3 3 [see .low]) = .low ∧
    (sample (at' buildPB 3 3 [see .high]) = .high ∧ (at' buildPB 3 3 []).cnt = buildPB.timeout) ∧
    (sample (at' buildPB 3 2 [see .high]) = .high ∧ (at' buildPB 3 2 []).cnt ≠ buildPB.timeout) := by decide

theorem witness_CalibrationRule :
    sample (at' buildPB 4 3 [see .high]) = .high ∧
    (sample (at' buildPB 4 3 [see .low]) = .low ∧ (at' buildPB 4 3 []).cnt = buildPB.timeout) ∧
    (sample (at' buildPB 4 2 [see .low]) = .low ∧ (at' buildPB 4 2 []).cnt ≠ buildPB.timeout) := by decide

theorem witness_FrameStartRule :
    sample (at' buildPB 5 3 [see .low]) = .low ∧
    (sample (at' buildPB 5 3 [see .high]) = .high ∧ (at' buildPB 5 3 []).cnt = buildPB.timeout) ∧
    (sample (at' buildPB 5 2 [see .high]) = .high ∧ (at' buildPB 5 2 []).cnt ≠ buildPB.timeout) := by decide

theorem witness_RisingEdgeRule :
    sample (at' buildPB 6 0 [see .high]) = .high ∧ sample (at' buildPB 6 0 [see .low]) = .low := by decide

theorem witness_BitRecordingRule :
    let last : State := { at' buildPB 7 3 [see .low] with idx := 39 }
    (sample (at' buildPB 7 3 [see .low]) = .low ∧ (at' buildPB 7 3 []).idx ≠ 39) ∧
    (sample last = .low ∧ last.idx = 39) ∧
    (sample (at' buildPB 7 3 [see .high]) = .high ∧ (at' buildPB 7 3 []).cnt = buildPB.timeout) ∧
    (sample (at' buildPB 7 2 [see .high]) = .high ∧ (at' buildPB 7 2 []).cnt ≠ buildPB.timeout) := by decide

theorem witness_ValidationRule :
    ({ at' buildPB 8 0 [] with frame := 0x028C010493 } : State).frame =
      (0x02 : Byte) ++ (0x8C : Byte) ++ (0x01 : Byte) ++ (0x04 : Byte) ++ (0x93 : Byte) ∧
    ((0x02 : Byte).toNat + (0x8C : Byte).toNat + (0x01 : Byte).toNat + (0x04 : Byte).toNat) % 256 =
      (0x93 : Byte).toNat ∧
    ((0x02 : Byte).toNat + (0x8C : Byte).toNat + (0x01 : Byte).toNat + (0x04 : Byte).toNat) % 256 ≠
      (0x94 : Byte).toNat := by decide

theorem witness_UnusedCodesReturnToIdle :
    (∃ t, 9 ≤ (at' buildPB 9 0 [see .low]).st.toNat ∧ (inputs (at' buildPB 9 0 [see .low])).rst = false ∧
      step (at' buildPB 9 0 [see .low]) = .next t) ∧
    (∃ t, 9 ≤ (at' buildPB 15 0 [see .low]).st.toNat ∧ (inputs (at' buildPB 15 0 [see .low])).rst = false ∧
      step (at' buildPB 15 0 [see .low]) = .next t) ∧
    ∃ t, exec .validate (at' buildPB 8 0 []) = .next t :=
  ⟨⟨_, by decide, rfl, rfl⟩, ⟨_, by decide, rfl, rfl⟩, ⟨_, rfl⟩⟩

theorem witness_RegistersAreWrittenOnlyByTheirRules :
    ∃ t, exec .validate (at' buildPB 8 0 []) = .next t ∧
      Instr.validate ∉ [.startReq, .start, .settle, .resp, .cal, .fstart, .bitrise, .bithigh] ∧
      Instr.cal ≠ .validate ∧
      Instr.bitrise ∉ [.startReq, .resp, .cal, .fstart, .bithigh, .validate] :=
  ⟨_, rfl, by decide, by decide, by decide⟩

theorem witness_ResetOverridesEveryStateRule :
    (inputs (at' buildPA 1 2 [rstIn])).rst = true ∧ (at' buildPA 1 2 [rstIn]).st = 1 := ⟨rfl, rfl⟩

theorem witness_ResetValuesOfEveryRegister :
    (State.reset = State.reset ∨ ∃ b : Build, State.reset = State.resetOf b) ∧
    (at' buildPA 0 0 [] = State.reset ∨ ∃ b : Build, at' buildPA 0 0 [] = State.resetOf b) :=
  ⟨.inl rfl, .inr ⟨buildPA, rfl⟩⟩

theorem witness_SensorHasNoEffectWhileTheLineIsDriven :
    (at' buildPA 1 0 [see .high, see .low]).st = 1 ∧
    (at' buildPA 1 0 [see .high, see .low]).pins = see .high :: [see .low] := by decide

theorem witness_RequestWhileBusyHasNoEffect :
    (at' buildPB 3 0 [ask .high]).st ≠ 0 ∧ (at' buildPB 3 0 [ask .high]).pins = ask .high :: [] := by decide

theorem witness_IdleWithoutRequestIsQuiescent :
    (at' buildPB 0 0 [see .low]).st = 0 ∧ (inputs (at' buildPB 0 0 [see .low])).start = false ∧
    (inputs (at' buildPB 0 0 [see .low])).rst = false := by decide

/-- The cycle of a `done` pulse after a response timeout, with this cycle's inputs. -/
def doneState (p : Inputs) : State := { at' buildPB 0 3 [p] with doneQ := true, errQ := 3 }

theorem doneState_inv (p : Inputs) : Inv (doneState p) := by
  constructor <;> simp only [doneState, at', State.resetOf] <;> decide

theorem witness_RequestInTheCycleOfDone :
    (Inv (doneState (ask .low)) ∧ (doneState (ask .low)).doneQ = true ∧ (inputs (doneState (ask .low))).start = true ∧
      (inputs (doneState (ask .low))).rst = false ∧ sample (doneState (ask .low)) = .low) ∧
    (Inv (doneState (ask .high)) ∧ (inputs (doneState (ask .high))).rst = false ∧
      sample (doneState (ask .high)) = .high) ∧
    (Inv (doneState rstIn) ∧ (inputs (doneState rstIn)).start = true ∧ (inputs (doneState rstIn)).rst = true) :=
  ⟨⟨doneState_inv _, rfl, rfl, rfl, rfl⟩, ⟨doneState_inv _, rfl, rfl⟩, ⟨doneState_inv _, rfl, rfl⟩⟩

theorem witness_ResultsChangeOnlyWithDoneAndReadingOnlyOnSuccess :
    (inputs (at' buildPB 3 0 [see .high])).rst = false ∧
    (∃ t, step (at' buildPB 3 0 [see .high]) = .next t ∧ t.doneQ = false) ∧
    (inputs (at' buildPB 3 3 [see .high])).rst = false ∧
    ∃ t, step (at' buildPB 3 3 [see .high]) = .next t ∧ t.doneQ = true ∧ t.errQ ≠ 0 :=
  ⟨rfl, ⟨_, rfl, rfl⟩, rfl, ⟨_, rfl, rfl, by decide⟩⟩

/-- One state for each of the seven causes, in the order of their codes. -/
theorem witness_EachOutcomeHasItsOneCause :
    ([at' buildPB 8 0 [see .low], at' buildPB 0 0 [ask .low], at' buildPB 3 3 [see .high], at' buildPB 4 3 [see .low],
      at' buildPB 5 3 [see .high], at' buildPB 7 3 [see .high],
      { at' buildPB 8 0 [see .low] with frame := 1 }].map fun s =>
        ((inputs s).rst, (nextOf (step s)).map fun t => (t.doneQ, t.errQ))) =
    [(false, some (true, 0)), (false, some (true, 2)), (false, some (true, 3)), (false, some (true, 4)),
      (false, some (true, 5)), (false, some (true, 6)), (false, some (true, 7))] := by decide

theorem witness_PhasesFollowTheProtocol :
    ([0, 1, 2, 3, 4, 5, 6, 7, 8] : List (BitVec 4)).all (fun c =>
      let s := at' buildPA c 0 [see .high]
      !(inputs s).rst && s.st == c && (nextOf (step s)).isSome) = true := by decide

theorem witness_FrameAndThresholdReachNoOutputBeforeValidation :
    (at' buildPB 7 1 [see .low]).st ≠ 8 ∧ (∃ t, step (at' buildPB 7 1 [see .low]) = .next t) ∧
    ∃ t', step { at' buildPB 7 1 [see .low] with frame := 5, thr := 2 } = .next t' :=
  ⟨by decide, ⟨_, rfl⟩, ⟨_, rfl⟩⟩

/-- RESP one sample before its ceiling. -/
theorem polling_inv : Inv (at' buildPB 3 2 [see .high]) := by
  constructor <;> decide

/-- States of the invariant whose next cycle shows each clause, with the count as high as the clause allows: acceptance,
the last counts of START, SETTLE, RESP, FSTART and BITHIGH, CAL's exit at the ceiling, BITRISE, a timeout, and a reset. -/
def countingStates : List State :=
  [at' buildPA 0 0 [ask .high], at' buildPA 1 2 [see .high], at' buildPA 2 0 [see .high], at' buildPA 3 19 [see .high],
    at' buildPA 4 20 [see .high], at' buildPA 5 19 [see .high], at' buildPA 6 0 [see .high],
    at' buildPA 7 19 [see .high], at' buildPA 7 20 [see .high], at' buildPA 3 20 [rstIn]]

theorem countingStates_inv : ∀ s ∈ countingStates, Inv s := by
  simp only [countingStates, List.forall_mem_cons]
  refine ⟨?_, ?_, ?_, ?_, ?_, ?_, ?_, ?_, ?_, ?_, by simp⟩ <;> constructor <;> decide

/-- The states meet the hypotheses, and their next codes, counts and thresholds are the rules'. -/
theorem witness_CountersNeverWrap :
    (∀ s ∈ countingStates, Inv s) ∧ (∀ s ∈ countingStates, s.build.fits ∧ (nextOf (step s)).isSome = true) ∧
    (countingStates.map fun s => (nextOf (step s)).map fun t => (t.st, t.cnt, t.thr)) =
      [some (1, 0, 0), some (1, 3, 0), some (2, 1, 0), some (3, 20, 0), some (5, 0, 12), some (5, 20, 0), some (7, 0, 0),
        some (7, 20, 0), some (0, 20, 0), some (0, 0, 0)] := ⟨countingStates_inv, by decide, by decide⟩

theorem witness_SampleIsTheLineSyncStagesBefore :
    (at' buildPB 0 0 []).build.syncStages = 0 ∧
    ((at' buildPA 0 0 []).sync.length = buildPA.syncStages ∧ buildPA.syncStages ≠ 0) ∧
    ((inputs (at' buildPA 0 0 [see .low])).rst = false ∧ (nextOf (step (at' buildPA 0 0 [see .low]))).isSome ∧
      (1 : Nat) < buildPA.syncStages) ∧
    observes (List.replicate buildPA.syncStages none) (at' buildPA 0 0 [see .low, see .high]) = true := by decide

theorem witness_SampleIsHighInTheWindowAfterReset :
    (at' buildPA 0 0 [see .low]).sync = List.replicate buildPA.syncStages .high ∧ 1 < buildPA.syncStages ∧
    observes (List.replicate 1 none) (at' buildPA 0 0 [see .low]) = true := by decide

theorem witness_HandshakeTimeline :
    let s := at' buildPA 0 0 (ask .high :: List.replicate 6 (see .high))
    s.build.fits ∧ s.st = 0 ∧ (inputs s).start = true ∧ sample s = .high ∧
    observes (List.replicate (s.build.startHold + s.build.releaseSettle + 1) none) s = true ∧
    3 < s.build.startHold ∧ 1 < s.build.releaseSettle := by decide

/-- `PA` meets the bound on RELEASE_SETTLE; a build like `PZ`, without a settle time, breaks it. -/
theorem witness_OwnDriveReachesTheFirstPollExactlyWhenSettleIsTooShort :
    ([buildPA, ⟨8000, 20, 4, 0, 2, 5⟩] : List Build).all (fun b =>
      let s := at' b 0 0 (ask .high :: List.replicate 6 (see .high))
      decide (s.build.fits) && s.st == 0 && (inputs s).start && sample s == .high &&
        s.sync.length == s.build.syncStages &&
        decide (s.build.syncStages ≤ s.build.startHold + s.build.releaseSettle) &&
        observes (List.replicate (s.build.startHold + s.build.releaseSettle + 1) none) s) = true := by decide

/-- RESP, CAL, FSTART and BITHIGH, each with TIMEOUT + 1 samples of its stay level. -/
theorem witness_BoundedWaitsTimeOutOnTheLastPoll :
    ([(3, .high), (4, .low), (5, .high), (7, .high)] : List (BitVec 4 × Level)).all (fun p =>
      let s := at' buildPB p.1 0 (List.replicate 4 (see p.2))
      decide (s.build.fits) && s.st == p.1 && s.cnt == 0 &&
        observes (held (s.build.timeout + 1) p.2) s) = true := by decide

/-- RESP, CAL and FSTART, each with no stay sample and with TIMEOUT of them. -/
theorem witness_BoundedWaitsExitWithTheirCount :
    ([(3, .high, .low), (4, .low, .high), (5, .high, .low)] : List (BitVec 4 × Level × Level)).all (fun p =>
      [0, 3].all fun n =>
        let s := at' buildPB p.1 0 (List.replicate n (see p.2.1) ++ [see p.2.2])
        decide (s.build.fits) && s.st == p.1 && s.cnt == 0 && decide (n ≤ s.build.timeout) &&
          observes (held n p.2.1 ++ [some p.2.2]) s) = true := by decide

theorem witness_RisingEdgeWaitHasNoCeiling :
    (at' buildPB 6 0 (List.replicate 5 (see .low))).st = 6 ∧
    observes (held 5 .low) (at' buildPB 6 0 (List.replicate 5 (see .low))) = true := by decide

/-- Bit 0 and bit 39, each of the shortest pulse and of the longest. -/
theorem witness_BitIsDecidedByItsPulseWidth :
    ([0, 39] : List (BitVec 6)).all (fun k => [1, 4].all fun M =>
      let s : State := { at' buildPB 6 0 (see .low :: List.replicate M (see .high) ++ [see .low]) with
        idx := k, thr := (3 - 1) * 50 / 80 }
      decide (s.build.fits) && s.st == 6 && decide (s.idx.toNat ≤ 39) && decide (M ≤ s.build.timeout + 1) &&
        observes (held 1 .low ++ held M .high ++ [some .low]) s) = true := by decide

/-- The last bit of a frame: response at once, a reference pulse of one sample, one bit, and the closing LOW. -/
theorem witness_ReadFromTheResponseOn :
    let s : State := { at' buildPB 3 0 [see .low, see .high, see .low, see .high, see .low, see .high] with idx := 39 }
    s.build.fits ∧ s.st = 3 ∧ s.cnt = 0 ∧ s.idx.toNat + [BitPulse.mk 1 1].length = 40 ∧
    (∀ p ∈ [BitPulse.mk 1 1], p.readable s.build) ∧ 1 ≤ s.build.timeout + 1 ∧
    observes (held 0 .high ++ held 1 .low ++ held 1 .high ++ bitSamples [⟨1, 1⟩] ++ [some .low, none]) s = true := by
  decide

theorem witness_ThresholdRange : 1 ≤ buildPB.timeout ∧ buildPB.fits ∧ 3 ≤ buildPB.timeout := by decide

theorem witness_ReceivedBitsLandInOrder : (List.replicate 40 true).length = 40 ∧ 0 < 40 ∧ 39 < 40 := by decide

theorem witness_TemperatureIsSignAndMagnitude :
    ((0x7F : Byte) &&& 0x80) = 0 ∧ ((0x80 : Byte) &&& 0x80) ≠ 0 ∧ ((0xFF : Byte) &&& 0x80) ≠ 0 := by decide

theorem witness_WidthBoundHoldsEveryCount : 1 ≤ buildPB.cw ∧ bitlen buildPB.maxCount ≤ buildPB.cw := by decide

theorem witness_EveryStepKeepsTheInvariant :
    (at' buildPB 3 2 [see .high]).build.fits ∧ Inv (at' buildPB 3 2 [see .high]) ∧
    ∃ t, step (at' buildPB 3 2 [see .high]) = .next t := ⟨by decide, polling_inv, _, rfl⟩

theorem witness_ResetHasTheInvariant :
    (inputs (at' buildPA 1 2 [rstIn])).rst = true ∧ ∃ t, step (at' buildPA 1 2 [rstIn]) = .next t := ⟨rfl, _, rfl⟩

/-- A whole attempt in `PB`: forty bits of one LOW and one HIGH sample each. -/
theorem witness_WholeReadAttempt :
    let pulses := List.replicate 40 (BitPulse.mk 1 1)
    let s := at' buildPB 0 0 (ask .high :: see .high :: (List.replicate 41 [see .low, see .high]).flatten ++
      [see .low, see .high])
    s.build.fits ∧ s.st = 0 ∧ (inputs s).start = true ∧ pulses.length = 40 ∧
    (∀ p ∈ pulses, p.readable s.build) ∧
    observes ([some .high] ++ List.replicate (s.build.startHold + s.build.releaseSettle) none ++ held 0 .high ++
      held 1 .low ++ held 1 .high ++ bitSamples pulses ++ [some .low, none]) s = true := by
  decide

end Sys2Proof.Tests
end

section
/-! PROOF. What the bound on CW of 00_scope.md R6 says about each of the three count limits. -/
namespace Sys2Proof

/-- For a width of at least 1 (`bitlen 0 = 1`), the bound on `bitlen` is a bound on the value. -/
theorem bitlen_le_iff_lt_two_pow {v w : Nat} (hw : 1 ≤ w) : bitlen v ≤ w ↔ v < 2 ^ w :=
  ⟨lt_two_pow_of_bitlen_le, bitlen_le_of_lt hw⟩

/-- `maxCount` is below a bound exactly when each of the three values it is the maximum of is. -/
theorem Build.maxCount_lt_iff {b : Build} {n : Nat} :
    b.maxCount < n ↔ b.timeout < n ∧ b.startHold - 1 < n ∧ b.releaseSettle - 1 < n := by
  rw [Build.maxCount, max_lt_iff, max_lt_iff]

/-- Settles O49: the bound on `bitlen` bounds `maxCount` by `2 ^ CW`, and a bound on a maximum is one on each term. -/
theorem widthBoundHoldsEveryCount : Obligations.WidthBoundHoldsEveryCount := fun _ hcw =>
  (bitlen_le_iff_lt_two_pow hcw).trans Build.maxCount_lt_iff

end Sys2Proof
end

section
/-!
PROOF. The invariant, kept update by update: one lemma for each update of the state, then one for every state rule, by
the cases of `RuleCase`, then the whole cycle.
-/
namespace Sys2Proof

theorem Phase.code_toNat_le (p : Phase) : p.code.toNat ≤ 8 := by
  cases p <;> decide

namespace Machine

variable {s : State}

/-! ## The data the updates write -/

/-- A 15-bit magnitude, negated or not, never gives the negative end of the 16-bit range (43_validator.md R183). -/
theorem temperature_ne_min (b2 b3 : Byte) : temperature b2 b3 ≠ 0x8000 := by
  have hm : (magnitude b2 b3).toNat < 2 ^ 15 := (magnitude b2 b3).isLt
  have hmin : (0x8000 : BitVec 16).toNat = 0x8000 := rfl
  rw [temperature, ne_eq, ← BitVec.toNat_inj, hmin]
  split
  · rw [BitVec.toNat_ofNat]; omega
  · rw [BitVec.toNat_setWidth]; omega

theorem shiftIn_toNat_lt {f : BitVec 40} {n : Nat} (bit : Bool) (h : f.toNat < 2 ^ n) :
    (shiftIn f bit).toNat < 2 ^ (n + 1) := by
  have hbit : (BitVec.ofBool bit).toNat < 2 ^ 1 := (BitVec.ofBool bit).isLt
  have hf : f.toNat % 2 ^ 39 ≤ f.toNat := Nat.mod_le _ _
  rw [shiftIn, BitVec.toNat_append, ← Nat.shiftLeft_add_eq_or_of_lt hbit, BitVec.extractLsb'_toNat, Nat.shiftRight_zero,
    Nat.shiftLeft_eq, Nat.pow_succ]
  omega

theorem byteIndex_toNat_le (h : s.idx.toNat ≤ 39) : (byteIndex s).toNat ≤ 4 := by
  rw [byteIndex, BitVec.extractLsb'_toNat, Nat.shiftRight_eq_div_pow]
  omega

theorem idx_succ_toNat {i : BitVec 6} (h : i.toNat ≤ 39) (hne : i ≠ 39) :
    (i + 1).toNat = i.toNat + 1 ∧ i.toNat + 1 ≤ 39 := by
  bv_omega

/-! ## Reset, and what stands around a state rule -/

theorem resetOf_inv (b : Build) : Inv (State.resetOf b) := by
  constructor <;> simp

theorem resetAll_inv (s : State) : Inv (resetAll s) :=
  { resetOf_inv s.build with }

theorem beginCycle_inv (h : Inv s) : Inv (beginCycle s) :=
  { h with done_ok := nofun, done_idle := nofun }

theorem endCycle_inv {t : State} (h : Inv t) (hsync : s.sync.length = s.build.syncStages) (hbuild : t.build = s.build) :
    Inv (endCycle s t) :=
  { h with sync_length := by simpa [hbuild] using shiftSync_length hsync }

/-! ## Ending an attempt -/

theorem publish_inv (h : Inv s) : Inv (publish s) :=
  { h with
    ok_valid := fun _ => rfl
    unread_zero := nofun
    temp_range := temperature_ne_min _ _ }

/-- `finish` meets every bound of an attempt, as it goes to IDLE; what it writes must be an outcome of R71 and R73. -/
theorem finish_inv (h : Inv s) {code eb ebit : BitVec 3} (hcode : code ≠ 1) (heb : eb.toNat ≤ 4)
    (hpos : code ≠ 6 → eb = 0 ∧ ebit = 0) (hread : code = 0 → s.rdValidQ = true) : Inv (finish code eb ebit s) :=
  { h with
    st_defined := Nat.zero_le _
    cnt_polling := by simp
    cnt_start := by simp
    cnt_settle := by simp
    cnt_zero := by simp
    thr_cleared := by simp
    bits_cleared := by simp
    frame_received := by simp
    idx_validate := by simp
    err_not_reserved := hcode
    errByte_range := heb
    position_zero := hpos
    ok_code := by simp [okOf]
    done_ok := by simp [okOf]
    done_idle := fun _ => rfl
    ok_valid := by simpa [okOf] using hread }

/-- An error without a position. -/
theorem finish_error_inv (h : Inv s) {code : BitVec 3} (h1 : code ≠ 1) (h0 : code ≠ 0) : Inv (finish code 0 0 s) :=
  finish_inv h h1 (Nat.zero_le _) (fun _ => ⟨rfl, rfl⟩) (fun e => absurd e h0)

/-! ## Counting -/

theorem clearCnt_inv (h : Inv s) : Inv (clearCnt s) :=
  { h with
    cnt_width := Nat.two_pow_pos _
    cnt_polling := fun _ => Nat.zero_le _
    cnt_start := fun e => Nat.zero_lt_of_lt (h.cnt_start e)
    cnt_settle := fun e => Nat.zero_lt_of_lt (h.cnt_settle e)
    cnt_zero := fun _ => rfl }

/-- A phase may count as long as its test for the last count fails (60_exceptions.md R212). -/
theorem countUp_inv (h : Inv s) (hpoll : polling s.st → s.cnt ≠ s.build.timeout)
    (hstart : s.st = Phase.start.code → s.cnt + 1 ≠ s.build.startHold)
    (hsettle : s.st = Phase.settle.code → s.cnt + 1 ≠ s.build.releaseSettle)
    (hzero : ¬(s.st = Phase.bitrise.code ∨ s.st = Phase.validate.code)) : Inv (countUp s) := by
  have hle : (countUp s).cnt ≤ s.cnt + 1 := keepCW_le _ _
  exact { h with
    cnt_width := keepCW_lt _ _
    cnt_polling := fun e => hle.trans (lt_of_le_of_ne (h.cnt_polling e) (hpoll e))
    cnt_start := fun e => hle.trans_lt (lt_of_le_of_ne (h.cnt_start e) (hstart e))
    cnt_settle := fun e => hle.trans_lt (lt_of_le_of_ne (h.cnt_settle e) (hsettle e))
    cnt_zero := fun e => absurd e hzero }

theorem countUp_polling_inv (h : Inv s) (hst : polling s.st) (hcnt : s.cnt ≠ s.build.timeout) : Inv (countUp s) := by
  refine countUp_inv h (fun _ => hcnt) ?_ ?_ ?_ <;> obtain hst | hst | hst | hst := hst <;> simp [hst]

/-! ## Entering a phase -/

/-- An accepted request enters START with every register of the attempt cleared (40_handshake.md R103). -/
theorem accept_inv (h : Inv s) (hfits : s.build.fits) (hdone : s.doneQ = false) : Inv (accept s) :=
  { h with
    st_defined := by simp
    cnt_width := Nat.two_pow_pos _
    thr_width := Nat.two_pow_pos _
    cnt_polling := by simp
    cnt_start := fun _ => hfits.1
    cnt_settle := by simp
    cnt_zero := by simp
    thr_range := Nat.zero_le _
    thr_cleared := fun _ => rfl
    idx_range := by simp
    bits_cleared := fun _ => ⟨rfl, rfl⟩
    frame_received := by simp
    idx_validate := by simp
    done_idle := by simp [hdone] }

/-- Any phase but START is entered with `cnt` = 0 and with the attempt's other registers as the phase needs them. -/
theorem goto_inv (h : Inv s) {p : Phase} (hdone : s.doneQ = false) (hcnt : s.cnt = 0)
    (hstart : p.code ≠ Phase.start.code) (hsettle : p.code = Phase.settle.code → 0 < s.build.releaseSettle)
    (hthr : beforeThreshold p.code → s.thr = 0) (hbits : beforeBits p.code → s.idx = 0 ∧ s.frame = 0)
    (hframe : p.code = Phase.bitrise.code ∨ p.code = Phase.bithigh.code → s.frame.toNat < 2 ^ s.idx.toNat)
    (hval : p.code = Phase.validate.code → s.idx = 39) : Inv (goto p s) :=
  { h with
    st_defined := p.code_toNat_le
    cnt_polling := fun _ => hcnt ▸ Nat.zero_le _
    cnt_start := fun e => absurd e hstart
    cnt_settle := fun e => hcnt ▸ hsettle e
    cnt_zero := fun _ => hcnt
    thr_cleared := hthr
    bits_cleared := hbits
    frame_received := hframe
    idx_validate := hval
    done_idle := by simp [hdone] }

/-- SETTLE, RESP and CAL follow a phase that has not written the threshold, and leave the cleared registers alone. -/
theorem goto_handshake_inv (h : Inv s) (hdone : s.doneQ = false) (hst : beforeThreshold s.st) {p : Phase}
    (hp : p = .settle ∧ 0 < s.build.releaseSettle ∨ p = .resp ∨ p = .cal) : Inv (goto p (clearCnt s)) := by
  have hbits : s.idx = 0 ∧ s.frame = 0 :=
    h.bits_cleared (hst.imp_right (Or.imp_right (Or.imp_right Or.inl)))
  refine goto_inv (clearCnt_inv h) hdone rfl ?_ ?_ (fun _ => h.thr_cleared hst) (fun _ => hbits) ?_ ?_ <;>
    obtain ⟨rfl, hr⟩ | rfl | rfl := hp <;> simp [*]

/-- CAL's exit writes the threshold of a count within TIMEOUT (41_calibration.md R133). -/
theorem goto_fstart_inv (h : Inv s) (hdone : s.doneQ = false) (hst : s.st = Phase.cal.code) :
    Inv (goto .fstart (clearCnt (writeThr (threshold s.cnt) s))) := by
  have hcnt : s.cnt ≤ s.build.timeout := h.cnt_polling (.inr (.inl hst))
  have hthr : threshold s.cnt ≤ 5 * s.build.timeout / 8 := by unfold threshold; omega
  have hbits : s.idx = 0 ∧ s.frame = 0 := h.bits_cleared (.inr (.inr (.inr (.inl hst))))
  have hu : Inv (goto .fstart (clearCnt s)) :=
    goto_inv (clearCnt_inv h) hdone rfl (by simp) (by simp) (by simp) (fun _ => hbits) (by simp) (by simp)
  exact { hu with
    thr_width := keepCW_lt _ _
    thr_range := (keepCW_le _ _).trans hthr
    thr_cleared := by simp }

/-- BITRISE is entered with no bit above those received: from FSTART with none at all. -/
theorem goto_bitrise_inv (h : Inv s) (hdone : s.doneQ = false) (hframe : s.frame.toNat < 2 ^ s.idx.toNat) :
    Inv (goto .bitrise (clearCnt s)) :=
  goto_inv (clearCnt_inv h) hdone rfl (by simp) (by simp) (by simp) (by simp) (fun _ => hframe) (by simp)

theorem goto_bithigh_inv (h : Inv s) (hdone : s.doneQ = false) (hst : s.st = Phase.bitrise.code) :
    Inv (goto .bithigh (clearCnt s)) :=
  goto_inv (clearCnt_inv h) hdone rfl (by simp) (by simp) (by simp) (by simp)
    (fun _ => h.frame_received (.inl hst)) (by simp)

theorem recordBit_of_last (h : s.idx = 39) :
    recordBit s = { goto .validate (clearCnt s) with frame := shiftIn s.frame (bitOf s.cnt s.thr) } := by
  simp only [recordBit, if_pos h]; rfl

theorem recordBit_of_not_last (h : s.idx ≠ 39) :
    recordBit s =
      { goto .bitrise (clearCnt s) with frame := shiftIn s.frame (bitOf s.cnt s.thr), idx := s.idx + 1 } := by
  simp only [recordBit, if_neg h]; rfl

/-- BITHIGH's exit shifts one bit in and counts it, unless it is the 40th (42_frame_decoder.md R152). -/
theorem recordBit_inv (h : Inv s) (hdone : s.doneQ = false) (hst : s.st = Phase.bithigh.code) :
    Inv (recordBit s) := by
  have hframe : s.frame.toNat < 2 ^ s.idx.toNat := h.frame_received (.inr hst)
  by_cases h39 : s.idx = 39
  · have hu : Inv (goto .validate (clearCnt s)) :=
      goto_inv (clearCnt_inv h) hdone rfl (by simp) (by simp) (by simp) (by simp) (by simp) (fun _ => h39)
    rw [recordBit_of_last h39]
    exact { hu with bits_cleared := by simp, frame_received := by simp }
  · have hu : Inv (goto .bitrise (clearCnt s)) := goto_bitrise_inv h hdone hframe
    obtain ⟨hidx, hle⟩ := idx_succ_toNat h.idx_range h39
    rw [recordBit_of_not_last h39]
    exact { hu with
      idx_range := hidx.trans_le hle
      bits_cleared := by simp
      frame_received := fun _ => by rw [hidx]; exact shiftIn_toNat_lt _ hframe
      idx_validate := by simp }

/-! ## The state rules and the cycle -/

/-- A state rule keeps the invariant, on the state of a cycle's start, where `done_q` is cleared. -/
theorem RuleCase.inv {t : State} (hr : RuleCase (current s) s t) (h : Inv s) (hfits : s.build.fits)
    (hdone : s.doneQ = false) : Inv t := by
  have hst := current_code s
  have hdef := h.st_defined
  generalize current s = i at hr hst
  cases hr with
  | idle => exact h
  | busBusy => exact finish_error_inv h (by decide) (by decide)
  | accept => exact accept_inv h hfits hdone
  | startEnd =>
    refine goto_handshake_inv h hdone (.inl hst) ?_
    by_cases hr : 0 < s.build.releaseSettle <;> simp [afterStart, hr]
  | startCount _ hc => exact countUp_inv h (by simp [hst]) (fun _ => hc) (by simp [hst]) (by simp [hst])
  | settleEnd => exact goto_handshake_inv h hdone (.inr (.inl hst)) (.inr (.inl rfl))
  | settleCount _ hc => exact countUp_inv h (by simp [hst]) (by simp [hst]) (fun _ => hc) (by simp [hst])
  | respExit => exact goto_handshake_inv h hdone (.inr (.inr (.inl hst))) (.inr (.inr rfl))
  | respTimeout => exact finish_error_inv h (by decide) (by decide)
  | respCount _ _ hc => exact countUp_polling_inv h (.inl hst) hc
  | calExit => exact goto_fstart_inv h hdone hst
  | calTimeout => exact finish_error_inv h (by decide) (by decide)
  | calCount _ _ hc => exact countUp_polling_inv h (.inr (.inl hst)) hc
  | fstartExit =>
    obtain ⟨hidx, hframe⟩ := h.bits_cleared (.inr (.inr (.inr (.inr hst))))
    exact goto_bitrise_inv h hdone (by simp [hidx, hframe])
  | fstartTimeout => exact finish_error_inv h (by decide) (by decide)
  | fstartCount _ _ hc => exact countUp_polling_inv h (.inr (.inr (.inl hst))) hc
  | bitriseExit => exact goto_bithigh_inv h hdone hst
  | bitriseStay => exact clearCnt_inv h
  | bithighExit => exact recordBit_inv h hdone hst
  | bithighTimeout => exact finish_inv h (by decide) (byteIndex_toNat_le h.idx_range) (absurd rfl) (by simp)
  | bithighCount _ _ hc => exact countUp_polling_inv h (.inr (.inr (.inr hst))) hc
  | publish => exact finish_inv (publish_inv h) (by decide) (by decide) (fun _ => ⟨rfl, rfl⟩) (fun _ => rfl)
  | mismatch => exact finish_error_inv h (by decide) (by decide)
  | unused9 => exact absurd (hst ▸ hdef) (by decide)
  | unusedAB => exact absurd (hst.trans hdef) (by decide)
  | unusedCF => exact absurd (hst.trans hdef) (by decide)

/-- Settles O50: a reset has the invariant, and a cycle without one is `beginCycle`, a state rule and `endCycle`, which
all keep it. -/
theorem everyStepKeepsTheInvariant : Obligations.EveryStepKeepsTheInvariant := by
  intro s t hfits h hstep
  obtain ⟨-, rfl⟩ | ⟨-, rfl⟩ := step_cases hstep
  · exact resetAll_inv s
  · have hrule := (ruleState_case (current s) (beginCycle s)).inv (beginCycle_inv h) hfits rfl
    exact endCycle_inv hrule h.sync_length (ruleState_frame _ _).2.1

/-- Settles O51: a reset cycle is `resetAll`, whose registers are those of the build's reset state. -/
theorem resetHasTheInvariant : Obligations.ResetHasTheInvariant := by
  refine ⟨resetOf_inv, resetOf_inv _, fun s t hrst hstep => ?_⟩
  rw [step_of_rst hrst] at hstep
  injection hstep with ht
  exact ht ▸ resetAll_inv s

end Machine
end Sys2Proof
end

section
/-!
PROOF. Dispatch and completion: which instruction a cycle runs, how it is placed, that it completes, and what it writes.
-/
namespace Sys2Proof.Machine

/-- Settles O5: the dispatch word decodes to the cycle's instruction, and a step without reset is `beginCycle`, that
instruction and `endCycle`. -/
theorem stepRunsTheDecodedInstruction : Obligations.StepRunsTheDecodedInstruction := by
  intro s i rest hrst hdec
  have hi : current s = i :=
    congrArg Prod.fst (Except.ok.inj ((decode_dispatchWord (inputs s).start s.st rest).symm.trans hdec))
  subst hi
  rw [step_of_run hrst, exec_next]
  rfl

@[simp] theorem inputs_withFetchWord_rst (s : State) (nbits w : Nat) :
    (inputs (s.withFetchWord nbits w)).rst = false := rfl

/-- The cycle of a placed word runs what the decoder reads from the word. -/
theorem current_withFetchWord {nbits w : Nat} {i : Instr} (s : State) (h : decodeTableWord nbits w = some i) :
    current (s.withFetchWord nbits w) = i :=
  (eq_of_decodeTableWord h).symm

/-- Settles O6: the placed word is without reset and selects the instruction, which answers a next state. -/
theorem placedWordIsRunByTheNextStep : Obligations.PlacedWordIsRunByTheNextStep := by
  intro s nbits w i hdec
  refine ⟨_, exec_next i _, ?_⟩
  rw [step_of_run (inputs_withFetchWord_rst s nbits w), current_withFetchWord s hdec]

/-- Settles O17: every instruction answers `ruleState`, and no case of it writes these fields. -/
theorem everyInstructionCompletes : Obligations.EveryInstructionCompletes := fun i s =>
  ⟨ruleState i s, exec_next i s, ruleState_frame i s⟩

/-- Settles O19, by the cases of the state rules: each writes only what its updates write. -/
theorem registersAreWrittenOnlyByTheirRules : Obligations.RegistersAreWrittenOnlyByTheirRules := by
  intro i s t hexec
  have hr := ruleState_case i s
  rw [exec_next] at hexec
  injection hexec with ht
  rw [ht] at hr
  cases hr <;> simp

end Sys2Proof.Machine
end

section
/-!
PROOF. The output ports, and what reaches them: their reset values, their dependence on `st`, and the independence of
`frame` and `thr` outside VALIDATE.
-/
namespace Sys2Proof.Machine

/-- `line_oe` is 1 exactly in START (10_state.md R27). -/
theorem lineOe_iff (s : State) : lineOe s = true ↔ s.st = 1 := by
  simp [lineOe]

/-- `busy` is 1 exactly outside IDLE (10_state.md R27). -/
theorem busy_iff (s : State) : busy s = true ↔ s.st ≠ 0 := by
  simp [busy]

/-- Settles O22: the ports are the three combinational functions. -/
theorem combinationalOutputsFollowTheState : Obligations.CombinationalOutputsFollowTheState := fun s =>
  ⟨lineOe_iff s, rfl, busy_iff s⟩

/-- Settles O21: the chip's reset state is that of its build, and each register is read off `resetOf`. -/
theorem resetValuesOfEveryRegister : Obligations.ResetValuesOfEveryRegister := by
  intro s hs
  obtain ⟨b, rfl⟩ : ∃ b, s = State.resetOf b := hs.elim (fun h => ⟨_, h⟩) id
  simp [outputs, lineOe, busy]

/-- A state without what it holds in `frame` and `thr`. -/
def eraseBits (s : State) : State := { s with frame := 0, thr := 0 }

theorem outputs_eraseBits (s : State) : outputs (eraseBits s) = outputs s := rfl

/-- A bounded wait reads neither register, if its exit action does not. -/
theorem eraseBits_boundedWait {stay : Level} {onExit : State → State} {e : BlockError} {s : State}
    (hexit : eraseBits (onExit (eraseBits s)) = eraseBits (onExit s)) :
    eraseBits (boundedWait stay onExit e (eraseBits s)) = eraseBits (boundedWait stay onExit e s) := by
  obtain ⟨hs, h⟩ | ⟨hs, hc, h⟩ | ⟨hs, hc, h⟩ := boundedWait_cases stay onExit e s <;> rw [h]
  · rw [boundedWait_exit (s := eraseBits s) hs, hexit]
  · rw [boundedWait_timeout (s := eraseBits s) hs hc]; rfl
  · rw [boundedWait_count (s := eraseBits s) hs hc]; rfl

/-- No state rule but VALIDATE's carries `frame` or `thr` into another register: what it gives outside them is the same
from the state without them. -/
theorem eraseBits_ruleState {i : Instr} (hi : i ≠ .validate) (s : State) :
    eraseBits (ruleState i (eraseBits s)) = eraseBits (ruleState i s) := by
  cases i with
  | validate => exact absurd rfl hi
  | startReq => simp only [ruleState_startReq, apply_ite eraseBits]; rfl
  | start => simp only [ruleState_start, apply_ite eraseBits]; rfl
  | settle => simp only [ruleState_settle, apply_ite eraseBits]; rfl
  | bitrise => simp only [ruleState_bitrise, unboundedWait, apply_ite eraseBits]; rfl
  | resp | cal | fstart | bithigh => exact eraseBits_boundedWait rfl
  | idle | unused9 | unusedAB | unusedCF => rfl

/-- The same of a whole cycle. -/
theorem eraseBits_cycleState {s : State} (hst : s.st ≠ 8) :
    eraseBits (cycleState (eraseBits s)) = eraseBits (cycleState s) := by
  have hi : current s ≠ .validate := fun e => hst (by have h := current_code s; rwa [e] at h)
  have hrule := eraseBits_ruleState hi (beginCycle s)
  by_cases hr : (inputs s).rst = true
  · rw [cycleState, cycleState, if_pos hr, if_pos (show (inputs (eraseBits s)).rst = true from hr)]; rfl
  · rw [cycleState, cycleState, if_neg hr, if_neg (show ¬(inputs (eraseBits s)).rst = true from hr)]
    exact congrArg (endCycle s) hrule

/-- Settles O30: the two states are one state without `frame` and `thr`, so the states after them are too, and no output
port shows either register. -/
theorem frameAndThresholdReachNoOutputBeforeValidation :
    Obligations.FrameAndThresholdReachNoOutputBeforeValidation := by
  intro s t t' f v hst h h'
  rw [step_next] at h h'
  injection h with h
  injection h' with h'
  have herase : eraseBits t = eraseBits t' := by
    rw [← h, ← h', ← eraseBits_cycleState hst, ← eraseBits_cycleState (s := { s with frame := f, thr := v }) hst]
    rfl
  rw [← outputs_eraseBits t, herase, outputs_eraseBits]

end Sys2Proof.Machine
end

section
/-! PROOF. The bytes of `frame` (10_state.md R23). -/
namespace Sys2Proof.Machine

/-- A byte above the last one lies in what stands before the last one. -/
theorem extractLsb'_append_byte {w : Nat} (hi : BitVec w) (lo : Byte) (start : Nat) :
    (hi ++ lo).extractLsb' (start + 8) 8 = hi.extractLsb' start 8 := by
  rw [BitVec.extractLsb'_append_eq_of_le (Nat.le_add_left 8 start), Nat.add_sub_cancel]

/-- Settles O45: each byte is the last one of `frame` once the bytes after it are taken off. -/
theorem frameHoldsTheFiveBytes : Obligations.FrameHoldsTheFiveBytes := by
  intro b0 b1 b2 b3 b4
  have h3 := extractLsb'_append_byte (b0 ++ b1 ++ b2 ++ b3) b4
  have h2 := fun start => (h3 (start + 8)).trans (extractLsb'_append_byte (b0 ++ b1 ++ b2) b3 start)
  have h1 := fun start => (h2 (start + 8)).trans (extractLsb'_append_byte (b0 ++ b1) b2 start)
  have h0 := fun start => (h1 (start + 8)).trans (extractLsb'_append_byte b0 b1 start)
  exact ⟨(h0 0).trans BitVec.extractLsb'_eq_self, (h1 0).trans BitVec.extractLsb'_append_eq_right,
    (h2 0).trans BitVec.extractLsb'_append_eq_right, (h3 0).trans BitVec.extractLsb'_append_eq_right,
    BitVec.extractLsb'_append_eq_right⟩

end Sys2Proof.Machine
end

section
/-!
PROOF. What a cycle takes from the inputs: `rst`, the instruction that `start` selects with `st`, and the level of the
line. Inputs that agree in these give the same next state.
-/
namespace Sys2Proof.Machine

/-- The state with the inputs `ps` listed for the coming cycles, instead of its own. -/
def withPins (ps : List Inputs) (s : State) : State := { s with pins := ps }

/-- The line is LOW in START, driven by the block, and the sensor's level elsewhere (20_memory.md R52). -/
theorem lineLevel_eq (s : State) : lineLevel s = if s.st = 1 then .low else (inputs s).sensor := by
  simp only [lineLevel, lineOe_iff]

/-- The inputs reach S through the line only. -/
theorem sample_withPins {ps : List Inputs} {s : State} (hline : lineLevel (withPins ps s) = lineLevel s) :
    sample (withPins ps s) = sample s := by
  rw [sample, sample, hline]; rfl

/-- A bounded wait reads no input but S, if its exit action reads none. -/
theorem boundedWait_withPins {ps : List Inputs} {stay : Level} {onExit : State → State} {e : BlockError} {s : State}
    (hsample : sample (withPins ps s) = sample s) (hexit : onExit (withPins ps s) = withPins ps (onExit s)) :
    boundedWait stay onExit e (withPins ps s) = withPins ps (boundedWait stay onExit e s) := by
  obtain ⟨hs, h⟩ | ⟨hs, hc, h⟩ | ⟨hs, hc, h⟩ := boundedWait_cases stay onExit e s <;> rw [h]
  · rw [boundedWait_exit (hsample.trans_ne hs), hexit]
  · rw [boundedWait_timeout (hsample.trans hs) hc]; rfl
  · rw [boundedWait_count (hsample.trans hs) hc]; rfl

/-- No state rule reads an input but S. -/
theorem ruleState_withPins {ps : List Inputs} {s : State} (i : Instr) (hsample : sample (withPins ps s) = sample s) :
    ruleState i (withPins ps s) = withPins ps (ruleState i s) := by
  cases i with
  | startReq => simp only [ruleState_startReq, hsample, apply_ite (withPins ps)]; rfl
  | start => simp only [ruleState_start, apply_ite (withPins ps)]; rfl
  | settle => simp only [ruleState_settle, apply_ite (withPins ps)]; rfl
  | bitrise =>
    have hclear : sample (clearCnt (withPins ps s)) = sample (clearCnt s) := hsample
    simp only [ruleState_bitrise, unboundedWait, hclear, apply_ite (withPins ps)]; rfl
  | validate => simp only [ruleState_validate, apply_ite (withPins ps)]; rfl
  | resp | cal | fstart | bithigh =>
    simp only [ruleState_resp, ruleState_cal, ruleState_fstart, ruleState_bithigh]
    exact boundedWait_withPins hsample rfl
  | idle | unused9 | unusedAB | unusedCF => rfl

/-- The end of a cycle uses up its own inputs, whatever they were. -/
theorem endCycle_withPins {ps : List Inputs} {s t : State} (hline : lineLevel (withPins ps s) = lineLevel s)
    (htail : ps.tail = t.pins.tail) : endCycle (withPins ps s) (withPins ps t) = endCycle s t := by
  rw [endCycle, endCycle, hline, nextCycle, nextCycle, ← htail]; rfl

/-- A cycle takes three things from its inputs: `rst`, the instruction that `start` selects, and the sensor's level,
which does not count in START. -/
theorem step_withPins {s : State} {p q : Inputs} {later : List Inputs} (hpins : s.pins = p :: later)
    (hrst : q.rst = p.rst) (hinstr : decodeState q.start s.st = decodeState p.start s.st)
    (hsensor : s.st = 1 ∨ q.sensor = p.sensor) : step (withPins (q :: later) s) = step s := by
  have hp : inputs s = p := by rw [inputs, hpins]
  have hcur : current (withPins (q :: later) s) = current s := by rw [current, current, hp]; exact hinstr
  have hline : lineLevel (withPins (q :: later) s) = lineLevel s := by
    rw [lineLevel_eq, lineLevel_eq, hp]
    obtain hst | hsame := hsensor
    · exact (if_pos hst).trans (if_pos hst).symm
    · rw [← hsame]; rfl
  have hrule : ruleState (current s) (beginCycle (withPins (q :: later) s)) =
      withPins (q :: later) (ruleState (current s) (beginCycle s)) :=
    ruleState_withPins (s := beginCycle s) _ (sample_withPins (s := beginCycle s) hline)
  have hkept : (ruleState (current s) (beginCycle s)).pins = p :: later := (ruleState_frame _ _).2.2.1.trans hpins
  have hreset : (inputs (withPins (q :: later) s)).rst = (inputs s).rst := by rw [hp]; exact hrst
  cases hr : (inputs s).rst with
  | true => rw [step_of_rst (hreset.trans hr), step_of_rst hr, resetAll, resetAll, hpins]; rfl
  | false =>
    rw [step_of_run (hreset.trans hr), step_of_run hr, hcur, hrule,
      endCycle_withPins hline (congrArg List.tail hkept).symm]

/-- Settles O23: in START the line is LOW whatever the sensor does, and the sensor reaches a cycle through the line
only. -/
theorem sensorHasNoEffectWhileTheLineIsDriven : Obligations.SensorHasNoEffectWhileTheLineIsDriven :=
  ⟨lineLevel_eq, fun _ _ _ _ hst hpins => step_withPins hpins rfl rfl (.inl hst)⟩

/-- Outside code 0 the decoder does not look at `start` (30_encoding.md R75). -/
theorem decodeState_start_irrelevant {st : BitVec 4} (h : st ≠ 0) (b b' : Bool) :
    decodeState b st = decodeState b' st := by
  revert st b b'; decide

/-- Settles O24: outside IDLE the instruction is the same for both values of `start`, and the line does not depend on
it. -/
theorem requestWhileBusyHasNoEffect : Obligations.RequestWhileBusyHasNoEffect := fun _ _ _ _ hst hpins =>
  step_withPins hpins rfl (decodeState_start_irrelevant hst _ _) (.inr rfl)

end Sys2Proof.Machine
end

section
/-! PROOF. When the result and status registers change (20_memory.md R60, 60_exceptions.md R204). -/
namespace Sys2Proof.Machine

/-- The result and status registers of two states agree, `done_q` apart. -/
structure SameResults (s t : State) : Prop where
  okQ : t.okQ = s.okQ
  errQ : t.errQ = s.errQ
  ebQ : t.ebQ = s.ebQ
  ebitQ : t.ebitQ = s.ebitQ
  humQ : t.humQ = s.humQ
  tempQ : t.tempQ = s.tempQ
  rdValidQ : t.rdValidQ = s.rdValidQ

/-- A state rule goes on without a result, finishes on the state it began in, or publishes and finishes with code 0. -/
theorem RuleCase.result_cases {i : Instr} {s t : State} (h : RuleCase i s t) :
    (t.doneQ = s.doneQ ∧ SameResults s t) ∨ (∃ code eb ebit, t = finish code eb ebit s) ∨
    t = finish 0 0 0 (Machine.publish s) := by
  cases h with
  | busBusy | respTimeout | calTimeout | fstartTimeout | bithighTimeout | mismatch => exact .inr (.inl ⟨_, _, _, rfl⟩)
  | publish => exact .inr (.inr rfl)
  | idle | accept | startEnd | startCount | settleEnd | settleCount | respExit | respCount | calExit | calCount
  | fstartExit | fstartCount | bitriseExit | bitriseStay | bithighExit | bithighCount | unused9 | unusedAB
  | unusedCF => exact .inl ⟨rfl, rfl, rfl, rfl, rfl, rfl, rfl, rfl⟩

/-- Settles O27, by what the cycle's state rule did to the results: only `finish` writes the status, and only the
publication, which ends with code 0, writes the Reading. -/
theorem resultsChangeOnlyWithDoneAndReadingOnlyOnSuccess :
    Obligations.ResultsChangeOnlyWithDoneAndReadingOnlyOnSuccess := by
  intro s t hr h
  obtain ⟨u, hrule, rfl⟩ := step_rule hr h
  obtain ⟨-, hsame⟩ | ⟨code, eb, ebit, rfl⟩ | rfl := hrule.result_cases
  · obtain ⟨hok, herr, heb, hebit, hhum, htemp, hvalid⟩ := hsame
    exact ⟨fun _ => ⟨hok, herr, heb, hebit, hhum, htemp, hvalid⟩, fun _ _ => ⟨hhum, htemp, hvalid⟩⟩
  · simp
  · simp

end Sys2Proof.Machine
end

section
/-! PROOF. The synchronizer as a delay line (20_memory.md R53). -/
namespace Sys2Proof.Machine

variable {s : State}

/-- Where there are stages, S is what the last one holds. -/
theorem sample_of_last {l : Level} (hn : s.build.syncStages ≠ 0) (h : s.sync[s.build.syncStages - 1]? = some l) :
    sample s = l := by
  rw [sample, if_neg hn, List.getD_eq_getElem?_getD, h, Option.getD_some]

theorem cycleState_sync (hr : (inputs s).rst = false) :
    (cycleState s).sync = shiftSync s.build (lineLevel s) s.sync := by
  rw [cycleState_of_run hr, endCycle_sync]

/-- A cycle without reset puts the line into stage 0, if there is one. -/
theorem cycleState_sync_zero (hr : (inputs s).rst = false) :
    (cycleState s).sync[0]? = if 0 < s.build.syncStages then some (lineLevel s) else none := by
  rw [cycleState_sync hr, shiftSync, List.getElem?_take, List.getElem?_cons_zero]

/-- A cycle without reset puts each stage into the next. -/
theorem cycleState_sync_succ (hr : (inputs s).rst = false) {i : Nat} (hi : i + 1 < s.build.syncStages) :
    (cycleState s).sync[i + 1]? = s.sync[i]? := by
  rw [cycleState_sync hr, shiftSync, List.getElem?_take_of_lt hi, List.getElem?_cons_succ]

theorem cycleState_sync_length (hr : (inputs s).rst = false) (hlen : s.sync.length = s.build.syncStages) :
    (cycleState s).sync.length = s.build.syncStages := by
  rw [cycleState_sync hr, shiftSync_length hlen]

/-- `k` cycles without reset move each stage on by `k`. -/
theorem after_sync_add {k i : Nat} (hi : i + k < s.build.syncStages)
    (hobs : observes (List.replicate k none) s = true) : (after k s).sync[i + k]? = s.sync[i]? := by
  induction k generalizing s i with
  | zero => rfl
  | succ k ih =>
    obtain ⟨hr, hrest⟩ := (observes_none_succ k s).1 hobs
    have hadd : i + (k + 1) = i + 1 + k := by omega
    rw [after_succ, hadd, ih (by rw [cycleState_build]; omega) hrest, cycleState_sync_succ hr (by omega)]

/-- After as many cycles without reset as there are stages, S is the level the line had in the first of them. -/
theorem sample_after_syncStages (hobs : observes (List.replicate s.build.syncStages none) s = true) :
    sample (after s.build.syncStages s) = lineLevel s := by
  cases hn : s.build.syncStages with
  | zero => rw [after_zero, sample, if_pos hn]
  | succ m =>
    rw [hn] at hobs
    obtain ⟨hr, hrest⟩ := (observes_none_succ m s).1 hobs
    have hbuild : (after (m + 1) s).build.syncStages = m + 1 := by rw [after_build, hn]
    have hlast := after_sync_add (s := cycleState s) (k := m) (i := 0) (by rw [cycleState_build]; omega) hrest
    rw [Nat.zero_add, cycleState_sync_zero hr, if_pos (by omega)] at hlast
    refine sample_of_last (by omega) ?_
    rw [hbuild, Nat.add_sub_cancel, after_succ, hlast]

/-- Settles O32, by the stages of one cycle and what they become after SYNC_STAGES of them. -/
theorem sampleIsTheLineSyncStagesBefore : Obligations.SampleIsTheLineSyncStagesBefore := by
  refine ⟨fun s => ⟨fun hn => if_pos hn, fun hlen hn => ?_⟩, fun s t hr hlen h => ?_,
    fun s _ hobs => ⟨_, run_after _ s, sample_after_syncStages hobs⟩⟩
  · have hlast : s.build.syncStages - 1 < s.sync.length := by omega
    have hget := List.getElem?_eq_getElem hlast
    rw [List.getLast?_eq_getElem?, hlen, hget, sample_of_last hn hget]
  · obtain rfl : cycleState s = t := Host.Outcome.next.inj ((step_next s).symm.trans h)
    refine ⟨cycleState_sync_length hr hlen, fun l hl => ?_, fun _ hi => cycleState_sync_succ hr hi⟩
    rw [cycleState_sync_zero hr] at hl
    split at hl
    · exact (Option.some.inj hl).symm
    · cases hl

end Sys2Proof.Machine
end

section
/-! PROOF. Where the received bits land in `frame` (20_memory.md R54). -/
namespace Sys2Proof.Machine

/-- The bit received last is `frame[0]`. -/
theorem shiftIn_getLsbD_zero (f : BitVec 40) (b : Bool) : (shiftIn f b).getLsbD 0 = b := by
  rw [shiftIn, BitVec.getLsbD_append]
  simp [-BitVec.getLsbD_eq_getElem]

/-- A bit received moves every earlier one up by one. -/
theorem shiftIn_getLsbD_succ (f : BitVec 40) (b : Bool) {i : Nat} (hi : i + 1 < 40) :
    (shiftIn f b).getLsbD (i + 1) = f.getLsbD i := by
  have hi' : i < 39 := by omega
  rw [shiftIn, BitVec.getLsbD_append]
  simp [hi', -BitVec.getLsbD_eq_getElem]

/-- Any number of bits received moves every earlier one up by that number. -/
theorem foldl_shiftIn_getLsbD_add (f : BitVec 40) (bits : List Bool) {i : Nat} (hi : i + bits.length < 40) :
    (bits.foldl shiftIn f).getLsbD (i + bits.length) = f.getLsbD i := by
  induction bits generalizing f i with
  | nil => rfl
  | cons b bits ih =>
    rw [List.length_cons] at hi ⊢
    have hadd : i + (bits.length + 1) = i + 1 + bits.length := by omega
    rw [List.foldl_cons, hadd, ih (shiftIn f b) (by omega), shiftIn_getLsbD_succ f b (by omega)]

/-- A received bit lies in `frame` as far up as there are bits received after it. -/
theorem foldl_shiftIn_getLsbD (f : BitVec 40) (earlier : List Bool) (b : Bool) (later : List Bool)
    (hlen : later.length < 40) : ((earlier ++ b :: later).foldl shiftIn f).getLsbD later.length = b := by
  have hmove := foldl_shiftIn_getLsbD_add (shiftIn (earlier.foldl shiftIn f) b) later (i := 0) (by omega)
  rw [Nat.zero_add, shiftIn_getLsbD_zero] at hmove
  rw [List.foldl_append, List.foldl_cons, hmove]

/-- Bit `i` of byte `j` in `frame` (10_state.md R23). -/
theorem frameByte_getLsbD (f : BitVec 40) (j : Nat) {i : Nat} (hi : i < 8) :
    (frameByte f j).getLsbD i = f.getLsbD (32 - 8 * j + i) := by
  rw [frameByte, BitVec.getLsbD_extractLsb', decide_eq_true hi, Bool.true_and]

/-- Settles O44: after the k-th of 40 bits there are 39 − k more, and that place is in byte k div 8. -/
theorem receivedBitsLandInOrder : Obligations.ReceivedBitsLandInOrder := by
  intro f bits hlen k hk
  have hcut : bits.take k ++ bits[k] :: bits.drop (k + 1) = bits := by
    rw [List.getElem_cons_drop, List.take_append_drop]
  have hlater : (bits.drop (k + 1)).length = 39 - k := by rw [List.length_drop]; omega
  have hbit := foldl_shiftIn_getLsbD f (bits.take k) bits[k] (bits.drop (k + 1)) (by omega)
  rw [hcut, hlater] at hbit
  have hplace : 32 - 8 * (k / 8) + (7 - k % 8) = 39 - k := by omega
  rw [frameByte_getLsbD _ _ (by omega), hplace, hbit]
  exact ⟨List.getElem?_eq_getElem _, List.getElem?_eq_getElem _⟩

end Sys2Proof.Machine
end

section
/-!
PROOF. The dispatch word (log entry 3): what each byte decodes to and what it encodes to again, and the rows of the
opcode table.
-/
namespace Sys2Proof

/-- Settles O1: the decoder gives back the instruction of every row, and a reserved row's code with it. -/
theorem decodingAnEncodedInstructionGivesItBack : Obligations.DecodingAnEncodedInstructionGivesItBack := by
  intro i
  cases i with
  | idle => exact Laws.DecodeEncode.idle
  | startReq => exact Laws.DecodeEncode.startReq
  | start => exact Laws.DecodeEncode.start
  | settle => exact Laws.DecodeEncode.settle
  | resp => exact Laws.DecodeEncode.resp
  | cal => exact Laws.DecodeEncode.cal
  | fstart => exact Laws.DecodeEncode.fstart
  | bitrise => exact Laws.DecodeEncode.bitrise
  | bithigh => exact Laws.DecodeEncode.bithigh
  | validate => exact Laws.DecodeEncode.validate
  | unused9 => exact Laws.DecodeEncode.unused9
  | unusedAB code => exact Laws.DecodeEncode.unusedAB code
  | unusedCF code => exact Laws.DecodeEncode.unusedCF code

theorem dispatchWord_toNat (start : Bool) (st : BitVec 4) :
    (dispatchWord start st).toNat = 16 * start.toNat + st.toNat := by
  revert start st; decide

/-- The bytes below 32 are the dispatch words. -/
theorem exists_dispatchWord_eq {b : Byte} (h : b.toNat < 32) : ∃ start st, b = dispatchWord start st := by
  refine ⟨decide (16 ≤ b.toNat), BitVec.ofNat 4 b.toNat, BitVec.eq_of_toNat_eq ?_⟩
  rw [dispatchWord_toNat, BitVec.toNat_ofNat, Bool.toNat, Bool.cond_decide]
  split <;> omega

/-- The bytes from 32 on have a bit above the dispatch word's. -/
theorem decode_eq_reservedBits_of_le {b : Byte} (h : 32 ≤ b.toNat) (rest : List Byte) :
    decode (b :: rest) = .error .reservedBits := by
  refine if_neg fun h5 => ?_
  have htop := congrArg BitVec.toNat h5
  rw [BitVec.extractLsb'_toNat, BitVec.toNat_zero, Nat.shiftRight_eq_div_pow] at htop
  omega

/-- What a pair selects encodes to the pair's word again, but that `start` is kept in code 0 only (30_encoding.md
R75). -/
theorem encodeWord_decodeState (start : Bool) (st : BitVec 4) :
    encodeWord (decodeState start st) = dispatchWord (start && st == 0) st := by
  revert start st; decide

theorem decodeState_wf (start : Bool) (st : BitVec 4) : (decodeState start st).wf = true := by
  revert start st; decide

theorem dispatchWord_and_low (start : Bool) (st : BitVec 4) : dispatchWord start st &&& 0x0F = st.setWidth 8 := by
  revert start st; decide

theorem decodeState_eq_startReq_iff (start : Bool) (st : BitVec 4) :
    decodeState start st = .startReq ↔ dispatchWord start st = 0x10 := by
  revert start st; decide

/-- Settles O4: a byte below 32 is the dispatch word of some pair, and a byte from 32 on has a reserved bit set. -/
theorem decoderKeepsTheCodeAndRefusesOtherBytes : Obligations.DecoderKeepsTheCodeAndRefusesOtherBytes := by
  refine ⟨rfl, fun b rest => ⟨fun hb => ?_, fun hb => decode_eq_reservedBits_of_le hb rest⟩⟩
  obtain ⟨start, st, rfl⟩ := exists_dispatchWord_eq hb
  refine ⟨decodeState start st, decode_dispatchWord start st rest, decodeState_wf start st, ?_,
    decodeState_eq_startReq_iff start st⟩
  rw [encodeWord_decodeState, dispatchWord_and_low, dispatchWord_and_low]

/-- The masks and matches of the rows divide the 16 codes among them (30_encoding.md R79). -/
theorem stateRows_match_once (st : BitVec 4) : (stateRows.filter (·.matchesCode st)).length = 1 := by
  revert st; decide

/-- What a pair selects has the mnemonic of each row that matches the code, unless it is the host's request. -/
theorem mnemonic_decodeState (start : Bool) (st : BitVec 4) :
    ∀ r ∈ stateRows, r.matchesCode st = true →
      (decodeState start st).mnemonic = if st = 0 ∧ start = true then "START_REQ" else r.mnemonic := by
  revert start st; decide

/-- Settles O2: the rows divide the codes, and the decoder follows them. -/
theorem everyStateCodeHasOneRowAndItsInstruction : Obligations.EveryStateCodeHasOneRowAndItsInstruction :=
  fun start st => ⟨stateRows_match_once st, mnemonic_decodeState start st⟩

/-- A table word of eight bits is one byte. -/
theorem tableBytes_toNat (b : Byte) : tableBytes 8 b.toNat = [b] := by
  simp [tableBytes]

/-- The table word of a pair's dispatch word is read as what the pair selects. -/
theorem decodeTableWord_dispatchWord (start : Bool) (st : BitVec 4) :
    decodeTableWord 8 (dispatchWord start st).toNat = some (decodeState start st) := by
  simp [decodeTableWord, tableBytes_toNat, decode_dispatchWord]

theorem decodeTableWord_eq_none_of_le {b : Byte} (h : 32 ≤ b.toNat) : decodeTableWord 8 b.toNat = none := by
  simp [decodeTableWord, tableBytes_toNat, decode_eq_reservedBits_of_le h]

/-- Settles O3: nine of the words are the dispatch words of `start` and a code, and the last has bit 5 set. -/
theorem wordsOfTheTableDecodeToTheirInstructions : Obligations.WordsOfTheTableDecodeToTheirInstructions :=
  ⟨decodeTableWord_dispatchWord false 0, decodeTableWord_dispatchWord true 0, decodeTableWord_dispatchWord false 1,
    decodeTableWord_dispatchWord false 4, decodeTableWord_dispatchWord false 7, decodeTableWord_dispatchWord false 8,
    decodeTableWord_dispatchWord false 9, decodeTableWord_dispatchWord false 11,
    decodeTableWord_dispatchWord false 14, decodeTableWord_eq_none_of_le (b := 0b0010_0000) (by decide)⟩

end Sys2Proof
end

section
/-!
PROOF. Which code a cycle writes to `st`: the protocol's order of the phases, and the way back from the unused codes.
-/
namespace Sys2Proof.Machine

variable {s t : State} {i : Instr}

/-- A state rule leaves `st`, or writes the code of a phase. -/
theorem RuleCase.st_eq_or_phase (h : RuleCase i s t) : t.st = s.st ∨ ∃ p : Phase, t.st = p.code := by
  cases h with
  | idle | startCount | settleCount | respCount | calCount | fstartCount | bitriseStay | bithighCount =>
    exact .inl rfl
  | bithighExit =>
    rw [recordBit_st, ← apply_ite Phase.code]
    exact .inr ⟨_, rfl⟩
  | accept => exact .inr ⟨.start, rfl⟩
  | startEnd | settleEnd | respExit | calExit | fstartExit | bitriseExit => exact .inr ⟨_, goto_st _ _⟩
  | busBusy | respTimeout | calTimeout | fstartTimeout | bithighTimeout | publish | mismatch | unused9 | unusedAB
  | unusedCF => exact .inr ⟨.idle, rfl⟩

/-- The codes from 9 on select the three reserved rows. -/
theorem decodeState_of_unused {st : BitVec 4} (h : 9 ≤ st.toNat) (start : Bool) :
    decodeState start st = .unused9 ∨ decodeState start st = .unusedAB st ∨ decodeState start st = .unusedCF st := by
  revert start st; decide

/-- Whatever the unused code, its rule is `st <- IDLE` (30_encoding.md R72). -/
theorem ruleState_of_unused {s : State} (h : 9 ≤ s.st.toNat) (u : State) : ruleState (current s) u = goto .idle u := by
  obtain hi | hi | hi := decodeState_of_unused h (inputs s).start <;> rw [current, hi] <;> rfl

/-- Settles O16: the three rules are `st <- IDLE`, a cycle of an unused code runs one of them, and any other code a rule
writes is a phase's. -/
theorem unusedCodesReturnToIdle : Obligations.UnusedCodesReturnToIdle := by
  refine ⟨fun s code => ⟨rfl, rfl, rfl⟩, fun s t hunused hr h => ⟨?_, ?_⟩, fun s t i h => ?_⟩
  · rw [step_of_run hr, ruleState_of_unused hunused] at h
    injection h with h
    subst h
    rfl
  · have hne : s.st ≠ 1 := fun hst => absurd (hst ▸ hunused) (by decide)
    exact Bool.eq_false_iff.2 (mt (lineOe_iff s).1 hne)
  · rw [exec_next] at h
    injection h with h
    obtain hsame | ⟨p, hp⟩ := (ruleState_case i s).st_eq_or_phase
    · exact .inl (h ▸ hsame)
    · exact .inr (by rw [← h, hp]; exact p.code_toNat_le)

/-- The codes that may follow in a state of the instruction's phase: the protocol of 30_encoding.md R70, rule by rule. -/
def Successor (s : State) (code : BitVec 4) : Instr → Prop
  | .idle => code = 0
  | .startReq => code = 0 ∨ code = 1 ∧ sample s = .high
  | .start => code = 1 ∨ code = 2 ∧ 0 < s.build.releaseSettle ∨ code = 3 ∧ s.build.releaseSettle = 0
  | .settle => code = 2 ∨ code = 3
  | .resp => code = 3 ∨ code = 4 ∨ code = 0
  | .cal => code = 4 ∨ code = 5 ∨ code = 0
  | .fstart => code = 5 ∨ code = 6 ∨ code = 0
  | .bitrise => code = 6 ∨ code = 7
  | .bithigh => code = 7 ∨ code = 6 ∧ s.idx ≠ 39 ∨ code = 8 ∧ s.idx = 39 ∨ code = 0
  | .validate | .unused9 | .unusedAB _ | .unusedCF _ => code = 0

/-- The rule of the instruction that `st` selects goes on as the protocol says. -/
theorem RuleCase.successor (h : RuleCase (current s) s t) : Successor s t.st (current s) := by
  have hst := current_code s
  generalize current s = i at h hst
  cases h with
  | idle => exact hst.1
  | busBusy => exact .inl rfl
  | accept _ hs => exact .inr ⟨rfl, hs⟩
  | startEnd =>
    rw [goto_st, afterStart_code]
    split
    · exact .inr (.inl ⟨rfl, ‹_›⟩)
    · exact .inr (.inr ⟨rfl, Nat.eq_zero_of_not_pos ‹_›⟩)
  | startCount | settleCount | respCount | calCount | fstartCount | bitriseStay | bithighCount => exact .inl hst
  | settleEnd | bitriseExit => exact .inr rfl
  | respExit | calExit | fstartExit => exact .inr (.inl rfl)
  | respTimeout | calTimeout | fstartTimeout => exact .inr (.inr rfl)
  | bithighExit =>
    rw [recordBit_st]
    split
    · exact .inr (.inr (.inl ⟨rfl, ‹_›⟩))
    · exact .inr (.inl ⟨rfl, ‹_›⟩)
  | bithighTimeout => exact .inr (.inr (.inr rfl))
  | publish | mismatch | unused9 | unusedAB | unusedCF => rfl

/-- Clearing `done_q` makes no difference to what may follow. -/
theorem successor_beginCycle (s : State) (code : BitVec 4) (i : Instr) :
    Successor (beginCycle s) code i ↔ Successor s code i := by
  cases i <;> rfl

/-- The same of a whole cycle, at the code it begins in. -/
theorem successor_of_step {c : BitVec 4} (hr : (inputs s).rst = false) (h : step s = .next t) (hc : s.st = c) :
    Successor s t.st (decodeState (inputs s).start c) := by
  obtain ⟨u, hrule, rfl⟩ := step_rule hr h
  rw [← current_of_st hc, endCycle_st, ← successor_beginCycle]
  exact RuleCase.successor (s := beginCycle s) hrule

/-- Settles O29: each code selects an instruction, and `Successor` says what may follow its rule. -/
theorem phasesFollowTheProtocol : Obligations.PhasesFollowTheProtocol := by
  intro s t hr h
  have hnext := fun c => successor_of_step (c := c) hr h
  refine ⟨fun hc => ?_, hnext 1, hnext 2, hnext 3, hnext 4, hnext 5, hnext 6, hnext 7, hnext 8⟩
  have hidle := hnext 0 hc
  cases hs : (inputs s).start with
  | false =>
    rw [hs] at hidle
    exact .inl hidle
  | true =>
    rw [hs] at hidle
    exact hidle.imp_right fun ⟨hcode, hsample⟩ => ⟨hcode, rfl, hsample⟩

end Sys2Proof.Machine
end

section
/-! PROOF. The state rules of the handshake, one by one (40_handshake.md R103 to R106). -/
namespace Sys2Proof.Machine

/-- Settles O7, by the two answers of the bus-idle check. -/
theorem requestIsCheckedAgainstTheBus : Obligations.RequestIsCheckedAgainstTheBus := by
  refine fun s => ⟨rfl, fun hlow => ?_, fun hhigh => ?_⟩
  · rw [exec_next, ruleState_startReq, if_pos hlow]; rfl
  · rw [exec_next, ruleState_startReq, if_neg (Level.ne_low.2 hhigh)]; rfl

/-- Settles O8: `line_oe` is `st` = START, and the rule's last cycle goes to the phase that RELEASE_SETTLE picks. -/
theorem startPulseHoldsTheLineLow : Obligations.StartPulseHoldsTheLineLow := by
  refine fun s => ⟨fun hst => ?_, fun hlast hpos => ?_, fun hlast hzero => ?_, fun hcount => ?_⟩
  · exact ⟨(lineOe_iff s).2 hst, if_pos ((lineOe_iff s).2 hst)⟩
  · rw [exec_next, ruleState_start, if_pos hlast, afterStart, if_pos hpos]; rfl
  · rw [exec_next, ruleState_start, if_pos hlast, afterStart, if_neg hzero.not_gt]; rfl
  · rw [exec_next, ruleState_start, if_neg hcount]; rfl

/-- Settles O9: SETTLE is not START, and its rule counts up to its last cycle. -/
theorem settleReleasesAndWaits : Obligations.SettleReleasesAndWaits := by
  refine fun s => ⟨fun hst => ?_, fun hlast => ?_, fun hcount => ?_⟩
  · rw [Bool.eq_false_iff, ne_eq, lineOe_iff, hst]; decide
  · rw [exec_next, ruleState_settle, if_pos hlast]; rfl
  · rw [exec_next, ruleState_settle, if_neg hcount]; rfl

/-- Settles O10, by the three cases of a bounded wait. -/
theorem responseWaitRule : Obligations.ResponseWaitRule := by
  refine fun s => ⟨fun hlow => ?_, fun hhigh hlimit => ?_, fun hhigh hcount => ?_⟩
  · rw [exec_next, ruleState_resp, boundedWait_exit (Level.ne_high.2 hlow)]; rfl
  · rw [exec_next, ruleState_resp, boundedWait_timeout hhigh hlimit]; rfl
  · rw [exec_next, ruleState_resp, boundedWait_count hhigh hcount]; rfl

end Sys2Proof.Machine
end

section
/-! PROOF. A phase cycle by cycle: the induction over the cycles of a run, and what a wait leaves as it was. -/
namespace Sys2Proof.Machine

variable {s t u : State} {k n : Nat}

theorem after_succ_last (k : Nat) (s : State) : after (k + 1) s = cycleState (after k s) := after_add k 1 s

/-- What a run sees in cycles that are all alike, cut after any number of them. -/
theorem observes_replicate_add (j k : Nat) (want : Option Level) (s : State) :
    observes (List.replicate (j + k) want) s = true ↔
      observes (List.replicate j want) s = true ∧ observes (List.replicate k want) (after j s) = true := by
  rw [List.replicate_add, observes_append, List.length_replicate]

/-- What holds at first, and after each cycle that the run sees if it held before it, holds all the way. -/
theorem after_induction {P : Nat → State → Prop} {want : Option Level}
    (hobs : observes (List.replicate n want) s = true) (hzero : P 0 s)
    (hsucc : ∀ k u, k < n → P k u → (inputs u).rst = false → (∀ l, want = some l → sample u = l) →
      P (k + 1) (cycleState u)) :
    ∀ k ≤ n, P k (after k s) := by
  intro k hk
  induction k with
  | zero => exact hzero
  | succ k ih =>
    obtain ⟨m, rfl⟩ : ∃ m, n = k + (m + 1) := ⟨n - (k + 1), by omega⟩
    rw [observes_replicate_add, List.replicate_succ, observes_cons] at hobs
    obtain ⟨-, hr, hwant, -⟩ := hobs
    rw [after_succ_last]
    exact hsucc k _ hk (ih (by omega)) hr hwant

/-- A cycle without reset runs the rule that its code selects. -/
theorem cycleState_of_st {c : BitVec 4} (hr : (inputs s).rst = false) (hst : s.st = c) :
    cycleState s = endCycle s (ruleState (decodeState (inputs s).start c) (beginCycle s)) := by
  rw [cycleState_of_run hr, current_of_st hst]

/-- The two states agree but in what a wait changes: `cnt`, `done_q`, the synchronizer and the inputs. -/
structure SameAttempt (s t : State) : Prop extends SameResults s t where
  st : t.st = s.st
  thr : t.thr = s.thr
  idx : t.idx = s.idx
  frame : t.frame = s.frame
  build : t.build = s.build

theorem SameAttempt.refl (s : State) : SameAttempt s s :=
  ⟨⟨rfl, rfl, rfl, rfl, rfl, rfl, rfl⟩, rfl, rfl, rfl, rfl, rfl⟩

/-- `u` is `s` after `k` cycles of a wait that counts from 0. -/
structure Waited (s : State) (k : Nat) (u : State) : Prop extends SameAttempt s u where
  cnt : u.cnt = k
  done : 0 < k → u.doneQ = false

/-- `t` is `s` gone on to the phase `p`, with `cnt` cleared and no `done`. -/
structure Entered (p : Phase) (s t : State) : Prop extends SameAttempt (goto p s) t where
  cnt : t.cnt = 0
  done : t.doneQ = false

theorem Waited.zero (hcnt : s.cnt = 0) : Waited s 0 s := { SameAttempt.refl s with cnt := hcnt, done := nofun }

/-- The second of two phases is entered with what the first was entered with. -/
theorem Entered.trans {p q : Phase} (h : Entered p s t) (h' : Entered q t u) : Entered q s u where
  okQ := h'.okQ.trans h.okQ
  errQ := h'.errQ.trans h.errQ
  ebQ := h'.ebQ.trans h.ebQ
  ebitQ := h'.ebitQ.trans h.ebitQ
  humQ := h'.humQ.trans h.humQ
  tempQ := h'.tempQ.trans h.tempQ
  rdValidQ := h'.rdValidQ.trans h.rdValidQ
  st := h'.st
  thr := h'.thr.trans h.thr
  idx := h'.idx.trans h.idx
  frame := h'.frame.trans h.frame
  build := h'.build.trans h.build
  cnt := h'.cnt
  done := h'.done

/-- A cycle that counts goes on with the wait. -/
theorem Waited.succ (h : Waited s k u) (hcycle : cycleState u = endCycle u (countUp (beginCycle u)))
    (hlt : k + 1 < 2 ^ s.build.cw) : Waited s (k + 1) (cycleState u) := by
  have hcount : keepCW u.build (u.cnt + 1) = k + 1 := by rw [h.cnt, h.build, keepCW_of_lt hlt]
  rw [hcycle]
  exact { h with cnt := hcount, done := fun _ => rfl }

end Sys2Proof.Machine
end

section
/-! PROOF. The bounded waits (40_handshake.md R100): counting, exit and timeout, once for all four phases. -/
namespace Sys2Proof.Machine

/-- The rule of the code `c` is a bounded wait on `stay`, with this exit action and this error. -/
def IsBoundedWait (c : BitVec 4) (stay : Level) (onExit : State → State) (e : State → BlockError) : Prop :=
  ∀ (start : Bool) (u : State), ruleState (decodeState start c) u = boundedWait stay onExit (e u) u

theorem resp_isBoundedWait :
    IsBoundedWait 3 .high (fun u => goto .cal (clearCnt u)) (fun _ => .responseTimeout) := fun _ _ => rfl

theorem cal_isBoundedWait :
    IsBoundedWait 4 .low (fun u => goto .fstart (clearCnt (writeThr (threshold u.cnt) u)))
      (fun _ => .calibrationTimeout) := fun _ _ => rfl

theorem fstart_isBoundedWait :
    IsBoundedWait 5 .high (fun u => goto .bitrise (clearCnt u)) (fun _ => .frameStartTimeout) := fun _ _ => rfl

theorem bithigh_isBoundedWait :
    IsBoundedWait 7 .high recordBit (fun u => .bitTimeout (byteIndex u) (bitIndex u)) := fun _ _ => rfl

namespace IsBoundedWait

variable {c : BitVec 4} {stay other : Level} {onExit : State → State} {e : State → BlockError} {s : State} {n : Nat}

/-- The cycle of a bounded wait. -/
theorem cycleState_eq (hw : IsBoundedWait c stay onExit e) (hst : s.st = c) (hr : (inputs s).rst = false) :
    cycleState s = endCycle s (boundedWait stay onExit (e (beginCycle s)) (beginCycle s)) := by
  rw [cycleState_of_st hr hst, hw]

/-- Up to TIMEOUT stay samples are counted. -/
theorem waits (hw : IsBoundedWait c stay onExit e) (hst : s.st = c) (hfits : s.build.fits) (hcnt : s.cnt = 0)
    (hn : n ≤ s.build.timeout) (hobs : observes (held n stay) s = true) : ∀ k ≤ n, Waited s k (after k s) := by
  refine after_induction hobs (.zero hcnt) fun k u hk h hr hsample => h.succ ?_ ?_
  · have hlimit : u.cnt ≠ u.build.timeout := by rw [h.cnt, h.build]; omega
    rw [hw.cycleState_eq (h.st.trans hst) hr, boundedWait_count (s := beginCycle u) (hsample stay rfl) hlimit]
  · exact lt_of_le_of_lt (by omega) hfits.timeout_lt

/-- After `n` stay samples, the other level runs the exit action with the count `n`. -/
theorem exits (hw : IsBoundedWait c stay onExit e) (hst : s.st = c) (hfits : s.build.fits) (hcnt : s.cnt = 0)
    (hn : n ≤ s.build.timeout) (hne : other ≠ stay) (hobs : observes (held n stay ++ [some other]) s = true) :
    Waited s n (after n s) ∧
      after (n + 1) s = endCycle (after n s) (onExit (beginCycle (after n s))) := by
  rw [observes_append, held, List.length_replicate, observes_cons] at hobs
  obtain ⟨hstay, hr, hsample, -⟩ := hobs
  have h : Waited s n (after n s) := hw.waits hst hfits hcnt hn hstay n le_rfl
  have hexit : sample (after n s) ≠ stay := (hsample other rfl).trans_ne hne
  rw [after_succ_last, hw.cycleState_eq (h.st.trans hst) hr, boundedWait_exit (s := beginCycle (after n s)) hexit]
  exact ⟨h, rfl⟩

/-- After TIMEOUT stay samples, one more raises the error. -/
theorem timesOut (hw : IsBoundedWait c stay onExit e) (hst : s.st = c) (hfits : s.build.fits) (hcnt : s.cnt = 0)
    (hobs : observes (held (s.build.timeout + 1) stay) s = true) :
    ∃ u, Waited s s.build.timeout u ∧
      after (s.build.timeout + 1) s = endCycle u (raise (e (beginCycle u)) (beginCycle u)) := by
  rw [held, observes_replicate_add, List.replicate_one, observes_cons] at hobs
  obtain ⟨hstay, hr, hsample, -⟩ := hobs
  have h : Waited s s.build.timeout (after s.build.timeout s) := hw.waits hst hfits hcnt le_rfl hstay _ le_rfl
  have hlimit : (after s.build.timeout s).cnt = (after s.build.timeout s).build.timeout := by rw [h.cnt, h.build]
  refine ⟨_, h, ?_⟩
  rw [after_succ_last, hw.cycleState_eq (h.st.trans hst) hr,
    boundedWait_timeout (s := beginCycle (after s.build.timeout s)) (hsample stay rfl) hlimit]

end IsBoundedWait

/-- The four bounded waits, each with the code of its error and the position it reports (30_encoding.md R71, R73). -/
theorem exists_isBoundedWait_error {s : State} {stay : Level} {code : BitVec 3}
    (h : (s.st = 3 ∧ stay = .high ∧ code = 3) ∨ (s.st = 4 ∧ stay = .low ∧ code = 4) ∨
      (s.st = 5 ∧ stay = .high ∧ code = 5) ∨ (s.st = 7 ∧ stay = .high ∧ code = 6)) :
    ∃ onExit e, IsBoundedWait s.st stay onExit e ∧ okOf code = false ∧ ∀ u : State, u.idx = s.idx →
      errorCode (e u) = code ∧ errorByte (e u) = (if code = 6 then byteIndex s else 0) ∧
      errorBit (e u) = (if code = 6 then bitIndex s else 0) := by
  obtain ⟨hst, rfl, rfl⟩ | ⟨hst, rfl, rfl⟩ | ⟨hst, rfl, rfl⟩ | ⟨hst, rfl, rfl⟩ := h <;> rw [hst]
  · exact ⟨_, _, resp_isBoundedWait, rfl, fun _ _ => ⟨rfl, rfl, rfl⟩⟩
  · exact ⟨_, _, cal_isBoundedWait, rfl, fun _ _ => ⟨rfl, rfl, rfl⟩⟩
  · exact ⟨_, _, fstart_isBoundedWait, rfl, fun _ _ => ⟨rfl, rfl, rfl⟩⟩
  · refine ⟨_, _, bithigh_isBoundedWait, rfl, fun u hidx => ⟨rfl, ?_, ?_⟩⟩
    · exact congrArg (BitVec.extractLsb' 3 3) hidx
    · exact congrArg (BitVec.extractLsb' 0 3) hidx

/-- Settles O36: the counting part of the wait, and its timeout on the state counted up to TIMEOUT, which still has the
`idx` and the Reading of the entry. -/
theorem boundedWaitsTimeOutOnTheLastPoll : Obligations.BoundedWaitsTimeOutOnTheLastPoll := by
  intro s stay code hphase hfits hcnt hobs
  obtain ⟨onExit, e, hw, hok, herror⟩ := exists_isBoundedWait_error hphase
  constructor
  · intro n hn
    have hstay : observes (held s.build.timeout stay) s = true := ((observes_replicate_add _ 1 _ s).1 hobs).1
    have h := hw.waits rfl hfits hcnt le_rfl hstay n hn
    exact ⟨_, run_after n s, h.st, h.cnt, h.done⟩
  · obtain ⟨u, h, hend⟩ := hw.timesOut rfl hfits hcnt hobs
    obtain ⟨hcode, hbyte, hbit⟩ := herror (beginCycle u) h.idx
    refine ⟨_, run_after _ s, ?_⟩
    rw [hend, raise_eq, hcode, hbyte, hbit]
    exact ⟨rfl, rfl, hok, rfl, rfl, rfl, h.humQ, h.tempQ, h.rdValidQ⟩

/-- The three bounded waits of the handshake and the frame start, each with what its exit action writes: `st`,
`cnt`, and in CAL the threshold. -/
theorem exists_isBoundedWait_exit {s : State} {stay other : Level} {next : BitVec 4}
    (h : (s.st = 3 ∧ stay = .high ∧ other = .low ∧ next = 4) ∨
      (s.st = 4 ∧ stay = .low ∧ other = .high ∧ next = 5) ∨
      (s.st = 5 ∧ stay = .high ∧ other = .low ∧ next = 6)) :
    other ≠ stay ∧ ∃ onExit e, IsBoundedWait s.st stay onExit e ∧ ∀ u : State, onExit u =
      { u with st := next, cnt := 0, thr := if s.st = 4 then keepCW u.build (threshold u.cnt) else u.thr } := by
  obtain ⟨hst, rfl, rfl, rfl⟩ | ⟨hst, rfl, rfl, rfl⟩ | ⟨hst, rfl, rfl, rfl⟩ := h <;> rw [hst]
  · exact ⟨by decide, _, _, resp_isBoundedWait, fun _ => rfl⟩
  · exact ⟨by decide, _, _, cal_isBoundedWait, fun _ => rfl⟩
  · exact ⟨by decide, _, _, fstart_isBoundedWait, fun _ => rfl⟩

/-- The threshold of a count within TIMEOUT is written whole (41_calibration.md R133). -/
theorem keepCW_threshold {b : Build} {n : Nat} (hfits : b.fits) (hn : n ≤ b.timeout) :
    keepCW b (threshold n) = n * 50 / 80 :=
  keepCW_of_lt (lt_of_le_of_lt (by unfold threshold; omega) hfits.timeout_lt)

/-- Settles O37: the exit action runs on the state that counted the stay samples. -/
theorem boundedWaitsExitWithTheirCount : Obligations.BoundedWaitsExitWithTheirCount := by
  intro s stay other next n hphase hfits hcnt hn hobs
  obtain ⟨hne, onExit, e, hw, hexit⟩ := exists_isBoundedWait_exit hphase
  obtain ⟨h, hend⟩ := hw.exits rfl hfits hcnt hn hne hobs
  refine ⟨⟨_, run_after n s, h.st, h.cnt⟩, _, run_after _ s, ?_⟩
  have hthr : keepCW (after n s).build (threshold (after n s).cnt) = n * 50 / 80 := by
    rw [h.build, h.cnt, keepCW_threshold hfits hn]
  rw [hend, hexit]
  refine ⟨rfl, rfl, rfl, ?_, h.idx, h.frame⟩
  exact ite_congr rfl (fun _ => hthr) (fun _ => h.thr)

end Sys2Proof.Machine
end

section
/-! PROOF. The wait for a bit's rising edge (40_handshake.md R101), which has no ceiling. -/
namespace Sys2Proof.Machine

/-- A LOW sample leaves BITRISE as it is, with `cnt` held at 0 (42_frame_decoder.md R151). -/
theorem cycleState_bitrise_of_low {s : State} (hst : s.st = 6) (hr : (inputs s).rst = false) (hs : sample s = .low) :
    cycleState s = endCycle s (clearCnt (beginCycle s)) := by
  have hstay : sample (clearCnt (beginCycle s)) = .low := hs
  rw [cycleState_of_st hr hst]
  exact congrArg (endCycle s) (if_neg (not_not.2 hstay))

/-- Any number of LOW samples leaves BITRISE as it is. -/
theorem after_bitrise_of_low {s : State} {n : Nat} (hst : s.st = 6) (hobs : observes (held n .low) s = true) :
    SameAttempt s (after n s) ∧ (0 < n → (after n s).doneQ = false ∧ (after n s).cnt = 0) := by
  refine after_induction (P := fun k u => SameAttempt s u ∧ (0 < k → u.doneQ = false ∧ u.cnt = 0)) hobs
    ⟨.refl s, nofun⟩ (fun k u _ h hr hsample => ?_) n le_rfl
  obtain ⟨hsame, -⟩ := h
  rw [cycleState_bitrise_of_low (hsame.st.trans hst) hr (hsample .low rfl)]
  exact ⟨{ hsame with }, fun _ => ⟨rfl, rfl⟩⟩

/-- Settles O38: the wait changes none of the registers of `SameAttempt`, and writes 0 to the other two. -/
theorem risingEdgeWaitHasNoCeiling : Obligations.RisingEdgeWaitHasNoCeiling := by
  intro s n hst hobs
  obtain ⟨hsame, hlast⟩ := after_bitrise_of_low hst hobs
  have hst' : (after n s).st = 6 := hsame.st.trans hst
  have hbusy : busy (after n s) = true := (busy_iff _).2 (by rw [hst']; decide)
  exact ⟨_, run_after n s, hst', hbusy, hlast, hsame.idx, hsame.frame, hsame.thr, hsame.okQ,
    hsame.errQ, hsame.ebQ, hsame.ebitQ, hsame.humQ, hsame.tempQ, hsame.rdValidQ⟩

end Sys2Proof.Machine
end

section
/-! PROOF. The timeline of the handshake, from acceptance to RESP's first poll (40_handshake.md R107). -/
namespace Sys2Proof.Machine

/-- The rule of the code `c` lasts `limit` cycles, counted from 0, and goes on to `next`. -/
def IsTimedPhase (c : BitVec 4) (limit : Build → Nat) (next : Build → Phase) : Prop :=
  ∀ (start : Bool) (u : State), ruleState (decodeState start c) u =
    if u.cnt + 1 = limit u.build then goto (next u.build) (clearCnt u) else countUp u

theorem start_isTimedPhase : IsTimedPhase 1 Build.startHold afterStart := fun _ _ => rfl

theorem settle_isTimedPhase : IsTimedPhase 2 Build.releaseSettle fun _ => .resp := fun _ _ => rfl

namespace IsTimedPhase

variable {c : BitVec 4} {limit : Build → Nat} {next : Build → Phase} {s : State} {k : Nat}

/-- The cycle of a timed phase. -/
theorem cycleState_eq (hp : IsTimedPhase c limit next) (hst : s.st = c) (hr : (inputs s).rst = false) :
    cycleState s = endCycle s (if s.cnt + 1 = limit s.build then goto (next s.build) (clearCnt (beginCycle s))
      else countUp (beginCycle s)) := by
  rw [cycleState_of_st hr hst, hp]; rfl

/-- The cycles before the last are counted. -/
theorem waits (hp : IsTimedPhase c limit next) (hst : s.st = c) (hcnt : s.cnt = 0)
    (hwidth : limit s.build - 1 < 2 ^ s.build.cw) (hobs : observes (List.replicate (limit s.build) none) s = true)
    (hk : k < limit s.build) : Waited s k (after k s) := by
  obtain ⟨m, hm⟩ : ∃ m, limit s.build = m + 1 := ⟨limit s.build - 1, by omega⟩
  rw [hm, observes_replicate_add] at hobs
  refine after_induction hobs.1 (.zero hcnt) (fun j u hj h hr _ => h.succ ?_ (by omega)) k (by omega)
  have hlimit : u.cnt + 1 ≠ limit u.build := by rw [h.cnt, h.build]; omega
  rw [hp.cycleState_eq (h.st.trans hst) hr, if_neg hlimit]

/-- The last cycle goes on to the next phase. -/
theorem enters (hp : IsTimedPhase c limit next) (hst : s.st = c) (hcnt : s.cnt = 0)
    (hwidth : limit s.build - 1 < 2 ^ s.build.cw) (hobs : observes (List.replicate (limit s.build) none) s = true)
    (hpos : 0 < limit s.build) : Entered (next s.build) s (after (limit s.build) s) := by
  obtain ⟨m, hm⟩ : ∃ m, limit s.build = m + 1 := ⟨limit s.build - 1, by omega⟩
  have h : Waited s m (after m s) := hp.waits hst hcnt hwidth hobs (by omega)
  rw [hm, observes_replicate_add, observes_none_succ] at hobs
  have hlimit : (after m s).cnt + 1 = limit (after m s).build := by rw [h.cnt, h.build, hm]
  rw [hm, after_succ_last, hp.cycleState_eq (h.st.trans hst) hobs.2.1, if_pos hlimit, h.build]
  exact { h with st := rfl, cnt := rfl, done := rfl }

end IsTimedPhase

/-- A request that is accepted in this cycle (40_handshake.md R103), in a run without reset up to RESP's first cycle. -/
structure AcceptedRun (s : State) : Prop where
  fits : s.build.fits
  st : s.st = 0
  start : (inputs s).start = true
  sample : sample s = .high
  obs : observes (List.replicate (s.build.startHold + s.build.releaseSettle + 1) none) s = true

namespace AcceptedRun

variable {s : State} {k : Nat}

theorem cycleState_eq (h : AcceptedRun s) : cycleState s = endCycle s (accept (beginCycle s)) := by
  have hne : ¬Machine.sample s = .low := by rw [h.sample]; decide
  rw [cycleState_of_st ((observes_none_succ _ s).1 h.obs).1 h.st, h.start]
  exact congrArg (endCycle s) (if_neg hne)

theorem st_start (h : AcceptedRun s) : (cycleState s).st = 1 := by rw [h.cycleState_eq]; rfl

theorem cnt_start (h : AcceptedRun s) : (cycleState s).cnt = 0 := by rw [h.cycleState_eq]; rfl

/-- The cycles of START are without reset. -/
theorem obs_start (h : AcceptedRun s) :
    observes (List.replicate (cycleState s).build.startHold none) (cycleState s) = true := by
  rw [cycleState_build]
  exact ((observes_replicate_add _ _ _ _).1 ((observes_none_succ _ s).1 h.obs).2).1

/-- The cycles after START, as many as SETTLE takes, are without reset. -/
theorem obs_settle (h : AcceptedRun s) :
    observes (List.replicate (after (1 + s.build.startHold) s).build.releaseSettle none)
      (after (1 + s.build.startHold) s) = true := by
  rw [after_build, after_add]
  exact ((observes_replicate_add _ _ _ _).1 ((observes_none_succ _ s).1 h.obs).2).2

/-- START holds from the cycle after acceptance, counting from 0. -/
theorem start_waits (h : AcceptedRun s) (hk : k < s.build.startHold) : Waited (cycleState s) k (after (1 + k) s) := by
  have hwidth := h.fits.startHold_lt
  rw [← cycleState_build s] at hk hwidth
  rw [after_add]
  exact start_isTimedPhase.waits h.st_start h.cnt_start hwidth h.obs_start hk

/-- After START_HOLD cycles START goes on to SETTLE or RESP. -/
theorem start_ends (h : AcceptedRun s) :
    Entered (afterStart s.build) (cycleState s) (after (1 + s.build.startHold) s) := by
  have hpos : 0 < s.build.startHold := h.fits.1
  have hwidth := h.fits.startHold_lt
  rw [after_add]
  rw [← cycleState_build s] at hpos hwidth ⊢
  exact start_isTimedPhase.enters h.st_start h.cnt_start hwidth h.obs_start hpos

theorem st_settle (h : AcceptedRun s) (hpos : 0 < s.build.releaseSettle) :
    (after (1 + s.build.startHold) s).st = 2 := by
  rw [h.start_ends.st, goto_st, afterStart_code, if_pos hpos]

/-- SETTLE follows for RELEASE_SETTLE cycles, counting from 0. -/
theorem settle_waits (h : AcceptedRun s) (hk : k < s.build.releaseSettle) :
    Waited (after (1 + s.build.startHold) s) k (after (1 + s.build.startHold + k) s) := by
  have hwidth := h.fits.releaseSettle_lt
  have hobs := h.obs_settle
  have hst := h.st_settle (Nat.zero_lt_of_lt hk)
  rw [← after_build (1 + s.build.startHold) s] at hk hwidth
  rw [after_add _ k]
  exact settle_isTimedPhase.waits hst h.start_ends.cnt hwidth hobs hk

/-- RESP follows after START_HOLD and RELEASE_SETTLE cycles, whether there is a SETTLE or not. -/
theorem resp_entered (h : AcceptedRun s) :
    Entered .resp (cycleState s) (after (1 + s.build.startHold + s.build.releaseSettle) s) := by
  have hstart := h.start_ends
  obtain hzero | hpos := Nat.eq_zero_or_pos s.build.releaseSettle
  · rw [afterStart, if_neg (by omega)] at hstart
    rwa [hzero]
  · have hwidth := h.fits.releaseSettle_lt
    have hobs := h.obs_settle
    have hst := h.st_settle hpos
    rw [← after_build (1 + s.build.startHold) s] at hpos hwidth
    have hsettle := settle_isTimedPhase.enters hst hstart.cnt hwidth hobs hpos
    rw [after_build, ← after_add] at hsettle
    exact hstart.trans hsettle

/-- The block drives the line `d` cycles before RESP's first poll exactly where that is before SETTLE. -/
theorem lineOe_before_resp (h : AcceptedRun s) {d : Nat} (hd : d ≤ s.build.startHold + s.build.releaseSettle) :
    lineOe (after (1 + s.build.startHold + s.build.releaseSettle - d) s) = true ↔ s.build.releaseSettle < d := by
  rw [lineOe_iff]
  by_cases hlt : s.build.releaseSettle < d
  · have hcycle : 1 + s.build.startHold + s.build.releaseSettle - d =
        1 + (s.build.startHold + s.build.releaseSettle - d) := by omega
    rw [hcycle, (h.start_waits (by omega)).st, h.st_start]
    simp [hlt]
  · have hcycle : 1 + s.build.startHold + s.build.releaseSettle - d =
        1 + s.build.startHold + (s.build.releaseSettle - d) := by omega
    rw [hcycle]
    obtain rfl | hpos := Nat.eq_zero_or_pos d
    · rw [Nat.sub_zero, h.resp_entered.st]
      simp
    · rw [(h.settle_waits (by omega)).st, h.st_settle (by omega)]
      simp [hlt]

end AcceptedRun

/-- Settles O34: the counted cycles of START and of SETTLE, and RESP entered after them with the registers that
acceptance cleared. -/
theorem handshakeTimeline : Obligations.HandshakeTimeline := by
  intro s hfits hst hstart hsample hobs
  have h : AcceptedRun s := ⟨hfits, hst, hstart, hsample, hobs⟩
  refine ⟨fun k hk => ?_, fun k hk => ?_, _, run_after _ s, ?_⟩
  · exact ⟨_, run_after _ s, (h.start_waits hk).st.trans h.st_start, (h.start_waits hk).cnt⟩
  · have hst' := h.st_settle (Nat.zero_lt_of_lt hk)
    exact ⟨_, run_after _ s, (h.settle_waits hk).st.trans hst', (h.settle_waits hk).cnt⟩
  · have hresp := h.resp_entered
    rw [h.cycleState_eq] at hresp
    exact ⟨hresp.st, hresp.cnt, hresp.thr, hresp.idx, hresp.frame, hresp.done⟩

/-- Settles O35: S is the line of SYNC_STAGES cycles before, and the block drove it then exactly where that is before
SETTLE. -/
theorem ownDriveReachesTheFirstPollExactlyWhenSettleIsTooShort :
    Obligations.OwnDriveReachesTheFirstPollExactlyWhenSettleIsTooShort := by
  intro s hfits hst hstart hsample _ hbound hobs
  have h : AcceptedRun s := ⟨hfits, hst, hstart, hsample, hobs⟩
  obtain ⟨j, hj⟩ : ∃ j, 1 + s.build.startHold + s.build.releaseSettle = j + s.build.syncStages :=
    ⟨1 + s.build.startHold + s.build.releaseSettle - s.build.syncStages, by omega⟩
  have hdrive := h.lineOe_before_resp hbound
  have hresp := h.resp_entered
  rw [hj] at hresp
  rw [hj, Nat.add_sub_cancel] at hdrive ⊢
  have hpoll : sample (after (j + s.build.syncStages) s) = lineLevel (after j s) := by
    have hlen : s.build.startHold + s.build.releaseSettle + 1 = j + s.build.syncStages := by omega
    rw [hlen, observes_replicate_add] at hobs
    obtain ⟨-, hwindow⟩ := hobs
    have hstages : (after j s).build.syncStages = s.build.syncStages := by rw [after_build]
    rw [after_add]
    rw [← hstages] at hwindow ⊢
    exact sample_after_syncStages hwindow
  refine ⟨_, _, run_after _ s, run_after _ s, hresp.st, hresp.cnt, hpoll, hdrive, fun hlt => ?_⟩
  rw [hpoll, lineLevel, if_pos (hdrive.2 hlt)]

end Sys2Proof.Machine
end

section
/-! PROOF. Threshold calibration (41_calibration.md): the rule of CAL, the threshold's three forms, and its range. -/
namespace Sys2Proof.Machine

/-- Settles O11, by the three cases of a bounded wait. -/
theorem calibrationRule : Obligations.CalibrationRule := by
  intro s
  refine ⟨fun hhigh => ?_, fun hlow hlimit => ?_, fun hlow hcount => ?_⟩
  · rw [exec_next, ruleState_cal, boundedWait_exit (Level.ne_low.2 hhigh)]; rfl
  · rw [exec_next, ruleState_cal, boundedWait_timeout hlow hlimit]; rfl
  · rw [exec_next, ruleState_cal, boundedWait_count hlow hcount]; rfl

/-- 50/80 = 5/8 exactly, so the quotients are the same. -/
theorem threshold_eq_five_mul_div_eight (n : Nat) : threshold n = 5 * n / 8 :=
  calc n * 50 / 80
    _ = 5 * n * 10 / (8 * 10) := by rw [Nat.mul_comm 5 n, Nat.mul_assoc]
    _ = 5 * n / 8 := Nat.mul_div_mul_right _ _ (by decide)

/-- The hardware's form: one addition and two shifts. -/
theorem threshold_eq_add_shiftRight (n : Nat) : threshold n = (n + (n <<< 2)) >>> 3 := by
  rw [threshold_eq_five_mul_div_eight, Nat.shiftRight_eq_div_pow, Nat.shiftLeft_eq]
  omega

/-- Settles O42: the first form is the definition. -/
theorem thresholdFormsAgree : Obligations.ThresholdFormsAgree := fun n =>
  ⟨rfl, threshold_eq_five_mul_div_eight n, threshold_eq_add_shiftRight n⟩

theorem threshold_le_of_le {n m : Nat} (h : n ≤ m) : threshold n ≤ 5 * m / 8 := by
  rw [threshold_eq_five_mul_div_eight]
  exact Nat.div_le_div_right (Nat.mul_le_mul_left 5 h)

/-- A bit is 1 exactly when its HIGH pulse is wider than the threshold (42_frame_decoder.md R153). -/
theorem bitOf_eq_true_iff {w thr : Nat} : bitOf w thr = true ↔ thr < w := decide_eq_true_iff

theorem bitOf_eq_false_iff {w thr : Nat} : bitOf w thr = false ↔ w ≤ thr := decide_eq_false_iff_not.trans not_lt

/-- Settles O43: the threshold is below TIMEOUT, which fits in CW bits and so is wide enough for a 1. -/
theorem thresholdRange : Obligations.ThresholdRange := by
  intro b n hpos hfits hn
  have hle : threshold n ≤ 5 * b.timeout / 8 := threshold_le_of_le hn
  have hlt : 5 * b.timeout / 8 < b.timeout := by omega
  have hthr : threshold n < b.timeout := hle.trans_lt hlt
  exact ⟨hle, hlt, hthr.trans hfits.timeout_lt, bitOf_eq_true_iff.2 hthr, bitOf_eq_false_iff.2 (Nat.zero_le _)⟩

end Sys2Proof.Machine
end

section
/-! PROOF. The state rules of the frame start and the decoder, one by one (42_frame_decoder.md R150 to R152). -/
namespace Sys2Proof.Machine

/-- Settles O12, by the three cases of a bounded wait. -/
theorem frameStartRule : Obligations.FrameStartRule := by
  refine fun s => ⟨fun hlow => ?_, fun hhigh hlimit => ?_, fun hhigh hcount => ?_⟩
  · rw [exec_next, ruleState_fstart, boundedWait_exit (Level.ne_high.2 hlow)]; rfl
  · rw [exec_next, ruleState_fstart, boundedWait_timeout hhigh hlimit]; rfl
  · rw [exec_next, ruleState_fstart, boundedWait_count hhigh hcount]; rfl

/-- The HIGH sample ends BITRISE (42_frame_decoder.md R151). -/
theorem ruleState_bitrise_of_high {s : State} (h : sample s = .high) :
    ruleState .bitrise s = goto .bithigh (clearCnt s) :=
  if_pos (Level.ne_low.2 h)

/-- A LOW sample leaves BITRISE with `cnt` held at 0 (42_frame_decoder.md R151). -/
theorem ruleState_bitrise_of_low {s : State} (h : sample s = .low) : ruleState .bitrise s = clearCnt s :=
  if_neg (not_not.2 h)

/-- Settles O13, by the two cases of the unbounded wait. -/
theorem risingEdgeRule : Obligations.RisingEdgeRule := by
  refine fun s => ⟨fun hhigh => ?_, fun hlow => ?_⟩
  · rw [exec_next, ruleState_bitrise_of_high hhigh]; rfl
  · rw [exec_next, ruleState_bitrise_of_low hlow]; rfl

theorem ofBool_bitOf (w thr : Nat) : BitVec.ofBool (bitOf w thr) = if thr < w then 1#1 else 0#1 := by
  by_cases h : thr < w <;> simp [bitOf, h]

/-- Settles O14: the exit of the wait is `recordBit`, before the 40th bit and at it, and its error has the halves of
`idx`. -/
theorem bitRecordingRule : Obligations.BitRecordingRule := by
  refine fun s => ⟨fun hlow hidx => ?_, fun hlow hidx => ?_, fun hhigh hlimit => ?_, fun hhigh hcount => ?_⟩
  · rw [exec_next, ruleState_bithigh, boundedWait_exit (Level.ne_high.2 hlow), recordBit_of_not_last hidx, shiftIn,
      ofBool_bitOf]
    rfl
  · rw [exec_next, ruleState_bithigh, boundedWait_exit (Level.ne_high.2 hlow), recordBit_of_last hidx, shiftIn,
      ofBool_bitOf]
    rfl
  · rw [exec_next, ruleState_bithigh, boundedWait_timeout hhigh hlimit]; rfl
  · rw [exec_next, ruleState_bithigh, boundedWait_count hhigh hcount]; rfl

end Sys2Proof.Machine
end

section
/-! PROOF. One bit, from BITRISE to the sample that records it (42_frame_decoder.md R151 to R154). -/
namespace Sys2Proof.Machine

variable {s t u : State} {gap m k : Nat}

theorem SameAttempt.trans (h : SameAttempt s t) (h' : SameAttempt t u) : SameAttempt s u where
  okQ := h'.okQ.trans h.okQ
  errQ := h'.errQ.trans h.errQ
  ebQ := h'.ebQ.trans h.ebQ
  ebitQ := h'.ebitQ.trans h.ebitQ
  humQ := h'.humQ.trans h.humQ
  tempQ := h'.tempQ.trans h.tempQ
  rdValidQ := h'.rdValidQ.trans h.rdValidQ
  st := h'.st.trans h.st
  thr := h'.thr.trans h.thr
  idx := h'.idx.trans h.idx
  frame := h'.frame.trans h.frame
  build := h'.build.trans h.build

/-- A HIGH sample takes BITRISE to BITHIGH, with `cnt` at 0 (42_frame_decoder.md R151). -/
theorem cycleState_bitrise_of_high (hst : s.st = 6) (hr : (inputs s).rst = false) (hs : sample s = .high) :
    cycleState s = endCycle s (goto .bithigh (clearCnt (beginCycle s))) := by
  rw [cycleState_of_st hr hst]
  exact congrArg (endCycle s) (ruleState_bitrise_of_high (s := beginCycle s) hs)

/-- The first HIGH sample takes BITRISE to BITHIGH, however long it waited. -/
theorem after_bitrise_of_high (hst : s.st = 6) (hobs : observes (held gap .low ++ [some .high]) s = true) :
    Entered .bithigh s (after (gap + 1) s) := by
  rw [observes_append, held, List.length_replicate, observes_cons] at hobs
  obtain ⟨hlow, hr, hsample, -⟩ := hobs
  obtain ⟨hsame, -⟩ := after_bitrise_of_low hst hlow
  rw [after_succ_last, cycleState_bitrise_of_high (hsame.st.trans hst) hr (hsample .high rfl)]
  exact { hsame with st := rfl, cnt := rfl, done := rfl }

/-- `t` is `s` after one more bit is recorded (42_frame_decoder.md R152): in BITRISE again, or in VALIDATE after the
40th. -/
structure BitReceived (s : State) (bit : Bool) (t : State) : Prop extends SameResults s t where
  st : t.st = if s.idx = 39 then 8 else 6
  idx : t.idx = if s.idx = 39 then s.idx else s.idx + 1
  frame : t.frame = shiftIn s.frame bit
  thr : t.thr = s.thr
  build : t.build = s.build
  cnt : t.cnt = 0
  done : t.doneQ = false

/-- What `recordBit` gives after a HIGH pulse that was counted to `k`. -/
theorem bitReceived_of_counted (h : SameAttempt (goto .bithigh s) u) (hcnt : u.cnt = k) :
    BitReceived s (bitOf k s.thr) (endCycle u (recordBit (beginCycle u))) :=
  { h with
    st := ite_congr (congrArg (· = 39) h.idx) (fun _ => rfl) (fun _ => rfl)
    idx := ite_congr (congrArg (· = 39) h.idx) (fun _ => h.idx) (fun _ => congrArg (· + 1) h.idx)
    frame := congrArg₂ shiftIn h.frame (congrArg₂ bitOf hcnt h.thr)
    cnt := rfl
    done := rfl }

/-- A bit of `m + 1` HIGH samples is recorded with the width `m`: BITRISE takes the first of them, BITHIGH counts the
others (42_frame_decoder.md R154). -/
theorem after_bit (hst : s.st = 6) (hfits : s.build.fits) (hm : m ≤ s.build.timeout)
    (hobs : observes (held gap .low ++ held (m + 1) .high ++ [some .low]) s = true) :
    BitReceived s (bitOf m s.thr) (after (gap + 1 + (m + 1)) s) := by
  have hcut : held gap .low ++ held (m + 1) .high ++ [some .low] =
      held gap .low ++ [some Level.high] ++ (held m .high ++ [some .low]) := by simp [held, List.replicate_succ]
  have hlen : (held gap .low ++ [some Level.high]).length = gap + 1 := by simp [held]
  rw [hcut, observes_append, hlen] at hobs
  obtain ⟨hrise, hpulse⟩ := hobs
  have hin : Entered .bithigh s (after (gap + 1) s) := after_bitrise_of_high hst hrise
  have hbuild : (after (gap + 1) s).build = s.build := after_build _ s
  obtain ⟨h, hend⟩ := bithigh_isBoundedWait.exits hin.st (hbuild ▸ hfits) hin.cnt (hbuild ▸ hm) (by decide) hpulse
  rw [after_add, hend]
  exact bitReceived_of_counted (hin.toSameAttempt.trans h.toSameAttempt) h.cnt

/-- The shift of 42_frame_decoder.md R153 as arithmetic on the whole register. -/
theorem shiftIn_eq_shiftLeft_or (f : BitVec 40) (b : Bool) :
    shiftIn f b = f <<< 1 ||| (BitVec.ofBool b).setWidth 40 := by
  apply BitVec.eq_of_getLsbD_eq
  rintro (_ | i) hi
  · rw [shiftIn_getLsbD_zero]
    simp [-BitVec.getLsbD_eq_getElem]
  · rw [shiftIn_getLsbD_succ f b hi]
    simp [hi, -BitVec.getLsbD_eq_getElem]

theorem setWidth_ofBool_bitOf (w thr : Nat) :
    (BitVec.ofBool (bitOf w thr)).setWidth 40 = if thr < w then 1#40 else 0#40 := by
  rw [ofBool_bitOf]
  split <;> rfl

/-- Settles O39: the bit that `after_bit` records, by the width M − 1 against the threshold of the reference pulse. -/
theorem bitIsDecidedByItsPulseWidth : Obligations.BitIsDecidedByItsPulseWidth := by
  intro s gap M N hfits hst _ _ hthr hM hmax hobs
  obtain ⟨m, rfl⟩ : ∃ m, M = m + 1 := ⟨M - 1, by omega⟩
  have h : BitReceived s (bitOf m s.thr) (after (gap + 1 + (m + 1)) s) := after_bit hst hfits (by omega) hobs
  have hcycles : gap + (m + 1) + 1 = gap + 1 + (m + 1) := by omega
  refine ⟨_, run_after _ s, ?_⟩
  rw [hcycles, Nat.add_sub_cancel, ← hthr]
  refine ⟨?_, h.thr, h.cnt, h.done, fun hlt => ?_, fun hlast => ?_⟩
  · rw [h.frame, shiftIn_eq_shiftLeft_or, setWidth_ofBool_bitOf]
  · have hne : s.idx ≠ 39 := fun e => by simp [e] at hlt
    rw [h.st, h.idx, if_neg hne, if_neg hne]
    exact ⟨rfl, (idx_succ_toNat hlt.le hne).1⟩
  · have h39 : s.idx = 39 := BitVec.eq_of_toNat_eq hlast
    rw [h.st, h.idx, if_pos h39, if_pos h39]
    exact ⟨rfl, h39⟩

end Sys2Proof.Machine
end

section
/-!
PROOF. The validator as arithmetic: the checksum and the decode of the two fields (43_validator.md R181 to R183), and the
five bytes of the frame they are taken of.
-/
namespace Sys2Proof.Machine

/-! ## The checksum -/

/-- Ten bits hold the sum of four bytes, so it is exact (43_validator.md R181). -/
theorem toNat_sum_setWidth_ten (b0 b1 b2 b3 : Byte) :
    (b0.setWidth 10 + b1.setWidth 10 + b2.setWidth 10 + b3.setWidth 10).toNat =
      b0.toNat + b1.toNat + b2.toNat + b3.toNat := by
  bv_omega

theorem checksumOk_iff {b0 b1 b2 b3 b4 : Byte} :
    checksumOk b0 b1 b2 b3 b4 = true ↔ (b0.toNat + b1.toNat + b2.toNat + b3.toNat) % 256 = b4.toNat := by
  rw [checksumOk, beq_iff_eq, toNat_sum_setWidth_ten]

/-- The carries that an 8-bit adder chain drops are what the modulus takes off (43_validator.md R181). -/
theorem byteSum_eq_iff {b0 b1 b2 b3 b4 : Byte} :
    b0 + b1 + b2 + b3 = b4 ↔ (b0.toNat + b1.toNat + b2.toNat + b3.toNat) % 256 = b4.toNat := by
  bv_omega

/-- Settles O46: both forms of the sum against the numbers. -/
theorem checksumIsTheSumModulo256 : Obligations.ChecksumIsTheSumModulo256 := fun _ _ _ _ _ =>
  ⟨checksumOk_iff, checksumOk_iff.trans byteSum_eq_iff.symm⟩

/-! ## The fields -/

/-- A byte appended is one more digit in base 256. -/
theorem toNat_append_byte {n : Nat} (a : BitVec n) (b : Byte) : (a ++ b).toNat = a.toNat * 256 + b.toNat := by
  rw [BitVec.toNat_append, ← Nat.shiftLeft_add_eq_or_of_lt b.isLt, Nat.shiftLeft_eq]

/-- Settles O47. -/
theorem humidityIsBigEndian : Obligations.HumidityIsBigEndian := toNat_append_byte

/-- `b2[6:0]` is `b2` under the mask 0x7F. -/
theorem magnitude_toNat (b2 b3 : Byte) : (magnitude b2 b3).toNat = (b2 &&& 0x7F).toNat * 256 + b3.toNat := by
  have hmask : (b2 &&& 0x7F).toNat = b2.toNat % 2 ^ 7 := Nat.and_two_pow_sub_one_eq_mod b2.toNat 7
  rw [magnitude, toNat_append_byte, hmask, BitVec.extractLsb'_toNat, Nat.shiftRight_zero]

/-- The sign bit is `b2` under the mask 0x80. -/
theorem and_0x80_eq_zero_iff {b : Byte} : b &&& 0x80 = 0 ↔ b.msb = false := by
  have hmask : b &&& 0x80 = if b.msb then 0x80 else 0 := BitVec.and_twoPow b 7
  rw [hmask]
  cases b.msb <;> decide

/-- 0x10000 − magnitude, modulo 0x10000, is the two's complement of the magnitude (43_validator.md R183). -/
theorem ofNat_sub_magnitude (b2 b3 : Byte) :
    BitVec.ofNat 16 ((0x10000 - (magnitude b2 b3).toNat) % 0x10000) = -(magnitude b2 b3).setWidth 16 := by
  bv_omega

theorem temperature_eq (b2 b3 : Byte) :
    temperature b2 b3 = if b2.msb then -(magnitude b2 b3).setWidth 16 else (magnitude b2 b3).setWidth 16 := by
  rw [temperature, ofNat_sub_magnitude]
  rfl

/-- One bit more than the magnitude has is room for its sign. -/
theorem toInt_setWidth_magnitude (b2 b3 : Byte) :
    ((magnitude b2 b3).setWidth 16).toInt = ((magnitude b2 b3).toNat : Int) := by
  have hlt : (magnitude b2 b3).toNat < 2 ^ 15 := (magnitude b2 b3).isLt
  have hval : ((magnitude b2 b3).setWidth 16).toNat = (magnitude b2 b3).toNat := BitVec.toNat_setWidth_of_le (by decide)
  rw [BitVec.toInt_eq_toNat_of_lt (by omega), hval]

theorem temperature_toInt_of_msb_false {b2 : Byte} (b3 : Byte) (h : b2.msb = false) :
    (temperature b2 b3).toInt = ((magnitude b2 b3).toNat : Int) := by
  rw [temperature_eq, h, if_neg Bool.false_ne_true, toInt_setWidth_magnitude]

/-- The negation does not overflow: a magnitude is not the least 16-bit number. -/
theorem temperature_toInt_of_msb_true {b2 : Byte} (b3 : Byte) (h : b2.msb = true) :
    (temperature b2 b3).toInt = -((magnitude b2 b3).toNat : Int) := by
  have hne : (magnitude b2 b3).setWidth 16 ≠ BitVec.intMin 16 := by
    intro hmin
    have hneg := toInt_setWidth_magnitude b2 b3
    rw [hmin, BitVec.toInt_intMin] at hneg
    omega
  rw [temperature_eq, if_pos h, BitVec.toInt_neg_of_ne_intMin hne, toInt_setWidth_magnitude]

/-- Settles O48: the two signs, and the range as that of the 15-bit magnitude. -/
theorem temperatureIsSignAndMagnitude : Obligations.TemperatureIsSignAndMagnitude := by
  intro b2 b3
  have hlt : (magnitude b2 b3).toNat < 2 ^ 15 := (magnitude b2 b3).isLt
  rw [and_0x80_eq_zero_iff, ne_eq, and_0x80_eq_zero_iff, ← magnitude_toNat]
  have hzero : temperature 0x80 0x00 = 0 := by decide
  cases hsign : b2.msb with
  | false =>
    rw [temperature_toInt_of_msb_false b3 hsign]
    exact ⟨fun _ => rfl, fun h => absurd rfl h, by omega, by omega, hzero⟩
  | true =>
    rw [temperature_toInt_of_msb_true b3 hsign]
    exact ⟨nofun, fun _ => rfl, by omega, by omega, hzero⟩

/-! ## The bytes of the frame (10_state.md R23) -/

variable (b0 b1 b2 b3 b4 : Byte)

@[simp] theorem frameByte_four : frameByte (b0 ++ b1 ++ b2 ++ b3 ++ b4) 4 = b4 := BitVec.extractLsb'_append_eq_right

/-- Above the last byte the frame is the four before it. -/
theorem frameByte_append_byte (f : BitVec 32) (b : Byte) {j : Nat} (hj : j < 4) :
    frameByte (f ++ b) j = f.extractLsb' (24 - 8 * j) 8 := by
  have hstart : 32 - 8 * j - 8 = 24 - 8 * j := by omega
  rw [frameByte, BitVec.extractLsb'_append_eq_of_le (by omega), hstart]

@[simp] theorem frameByte_three : frameByte (b0 ++ b1 ++ b2 ++ b3 ++ b4) 3 = b3 :=
  (frameByte_append_byte _ b4 (by decide)).trans BitVec.extractLsb'_append_eq_right

@[simp] theorem frameByte_two : frameByte (b0 ++ b1 ++ b2 ++ b3 ++ b4) 2 = b2 := by
  rw [frameByte_append_byte _ _ (by decide), BitVec.extractLsb'_append_eq_of_le (by decide)]
  exact BitVec.extractLsb'_append_eq_right

@[simp] theorem frameByte_one : frameByte (b0 ++ b1 ++ b2 ++ b3 ++ b4) 1 = b1 := by
  rw [frameByte_append_byte _ _ (by decide), BitVec.extractLsb'_append_eq_of_le (by decide),
    BitVec.extractLsb'_append_eq_of_le (by decide)]
  exact BitVec.extractLsb'_append_eq_right

@[simp] theorem frameByte_zero : frameByte (b0 ++ b1 ++ b2 ++ b3 ++ b4) 0 = b0 := by
  rw [frameByte_append_byte _ _ (by decide), BitVec.extractLsb'_append_eq_of_le (by decide),
    BitVec.extractLsb'_append_eq_of_le (by decide)]
  exact BitVec.extractLsb'_append_eq_left

theorem frameOk_bytes_iff :
    frameOk (b0 ++ b1 ++ b2 ++ b3 ++ b4) = true ↔ (b0.toNat + b1.toNat + b2.toNat + b3.toNat) % 256 = b4.toNat := by
  rw [frameOk, frameByte_zero, frameByte_one, frameByte_two, frameByte_three, frameByte_four, checksumOk_iff]

end Sys2Proof.Machine
end

section
/-! PROOF. The rule of VALIDATE (43_validator.md R180). -/
namespace Sys2Proof.Machine

theorem publish_of_bytes {s : State} {b0 b1 b2 b3 b4 : Byte} (h : s.frame = b0 ++ b1 ++ b2 ++ b3 ++ b4) :
    publish s = { s with humQ := humidity b0 b1, tempQ := temperature b2 b3, rdValidQ := true } := by
  rw [publish, h, frameByte_zero, frameByte_one, frameByte_two, frameByte_three]

/-- Settles O15, by the outcome of the checksum. -/
theorem validationRule : Obligations.ValidationRule := by
  intro s b0 b1 b2 b3 b4 hframe
  refine ⟨fun hsum => ?_, fun hsum => ?_⟩
  · rw [← frameOk_bytes_iff, ← hframe] at hsum
    rw [exec_next, ruleState_validate, if_pos hsum, publish_of_bytes hframe, temperature_eq]
    rfl
  · rw [ne_eq, ← frameOk_bytes_iff, ← hframe] at hsum
    rw [exec_next, ruleState_validate, if_neg hsum]
    rfl

end Sys2Proof.Machine
end

section
/-! PROOF. IDLE: the quiescent cycle, and a request in the cycle of a `done` pulse (60_exceptions.md R207, R216). -/
namespace Sys2Proof.Machine

/-- IDLE runs its own rule or the host's request, as `start` says (30_encoding.md R75). -/
theorem current_of_idle {s : State} {b : Bool} (hst : s.st = 0) (hstart : (inputs s).start = b) :
    current s = if b then .startReq else .idle := by
  rw [current_of_st hst, hstart]; rfl

/-- Settles O25: IDLE's rule writes nothing, so what is left of the cycle is what stands around a rule. -/
theorem idleWithoutRequestIsQuiescent : Obligations.IdleWithoutRequestIsQuiescent := by
  intro s hst hstart hr
  have hne : s.st ≠ 1 := by rw [hst]; decide
  have hline : lineLevel s = (inputs s).sensor := by rw [lineLevel_eq, if_neg hne]
  refine ⟨?_, Bool.eq_false_iff.2 (mt (lineOe_iff s).1 hne)⟩
  rw [step_of_run hr, current_of_idle hst hstart, ← hline]
  rfl

/-- A request in IDLE is answered by the bus-idle check (40_handshake.md R103). -/
theorem step_of_request {s : State} (hst : s.st = 0) (hstart : (inputs s).start = true) (hr : (inputs s).rst = false) :
    step s = .next (endCycle s
      (if sample s = .low then raise .busBusy (beginCycle s) else accept (beginCycle s))) := by
  rw [step_of_run hr, current_of_idle hst hstart, if_pos rfl, ruleState_startReq, sample_beginCycle]

/-- Settles O26: the invariant puts the cycle of a `done` pulse in IDLE, where a request is answered unless the cycle
resets. -/
theorem requestInTheCycleOfDone : Obligations.RequestInTheCycleOfDone := by
  intro s hinv hdone hstart
  have hst : s.st = 0 := hinv.done_idle hdone
  refine ⟨hst, fun hr hlow => ?_, fun hr hhigh => ?_, fun hr => ⟨_, step_of_rst hr, rfl, rfl⟩⟩
  · exact ⟨_, step_of_request hst hstart hr, by simp [hlow, errorCode, okOf]⟩
  · exact ⟨_, step_of_request hst hstart hr, by simp [hhigh]⟩

end Sys2Proof.Machine
end

section
/-! PROOF. The outcomes and their causes (60_exceptions.md R200, R201). -/
namespace Sys2Proof.Machine

/-- Settles O28, by the rules of `RuleCase` that finish: each has its own code, and its conditions are the cause. Every
other rule leaves `done_q` cleared. -/
theorem eachOutcomeHasItsOneCause : Obligations.EachOutcomeHasItsOneCause := by
  intro s t hr h hdone
  obtain ⟨u, hrule, rfl⟩ := step_rule hr h
  have hst := current_code s
  generalize current s = i at hrule hst
  cases hrule with
  | busBusy _ hs => simpa [okOf, hst] using hs
  | respTimeout _ hs hcnt | calTimeout _ hs hcnt | fstartTimeout _ hs hcnt => simpa [okOf, hst] using ⟨hs, hcnt⟩
  | bithighTimeout _ hs hcnt => simpa [okOf, hst, byteIndex, bitIndex] using ⟨hs, hcnt⟩
  | publish _ hok | mismatch _ hok => simpa [okOf, hst] using hok
  | idle | accept | startEnd | startCount | settleEnd | settleCount | respExit | respCount | calExit | calCount
  | fstartExit | fstartCount | bitriseExit | bitriseStay | bithighExit | bithighCount | unused9 | unusedAB
  | unusedCF => exact absurd hdone Bool.false_ne_true

end Sys2Proof.Machine
end

section
/-! PROOF. The counters do not wrap (60_exceptions.md R212): `cnt` and `thr` after a state rule, exactly. -/
namespace Sys2Proof.Machine

variable {s t : State}

/-- A count that stays below the limit of its phase is exact, as CW holds the limit. -/
theorem countUp_cnt_of_lt {limit : Nat} (hcnt : s.cnt < limit) (hlimit : limit < 2 ^ s.build.cw) :
    (countUp s).cnt = s.cnt + 1 :=
  keepCW_of_lt (lt_of_le_of_lt hcnt hlimit)

/-- A bounded wait below its ceiling counts exactly. -/
theorem countUp_cnt_of_polling (hinv : Inv s) (hfits : s.build.fits) (hst : polling s.st)
    (hcnt : s.cnt ≠ s.build.timeout) : (countUp s).cnt = s.cnt + 1 :=
  countUp_cnt_of_lt (lt_of_le_of_ne (hinv.cnt_polling hst) hcnt) hfits.timeout_lt

/-- START before its last cycle counts exactly. -/
theorem countUp_cnt_of_start (hinv : Inv s) (hfits : s.build.fits) (hst : s.st = 1)
    (hcnt : s.cnt + 1 ≠ s.build.startHold) : (countUp s).cnt = s.cnt + 1 := by
  have hlt : s.cnt < s.build.startHold := hinv.cnt_start hst
  exact countUp_cnt_of_lt (by omega) hfits.startHold_lt

/-- SETTLE before its last cycle counts exactly. -/
theorem countUp_cnt_of_settle (hinv : Inv s) (hfits : s.build.fits) (hst : s.st = 2)
    (hcnt : s.cnt + 1 ≠ s.build.releaseSettle) : (countUp s).cnt = s.cnt + 1 := by
  have hlt : s.cnt < s.build.releaseSettle := hinv.cnt_settle hst
  exact countUp_cnt_of_lt (by omega) hfits.releaseSettle_lt

/-- `cnt` after a state rule: kept by a rule that ends in IDLE, counted up while a phase goes on, and cleared by BITRISE
and on entering a phase. -/
theorem RuleCase.cnt_eq (h : RuleCase (current s) s t) (hinv : Inv s) (hfits : s.build.fits) :
    t.cnt = if t.st = 0 then s.cnt else if t.st = s.st ∧ s.st ≠ 6 then s.cnt + 1 else 0 := by
  have hst := current_code s
  generalize current s = i at h hst
  cases h with
  | idle => exact (if_pos hst.1).symm
  | busBusy | respTimeout | calTimeout | fstartTimeout | bithighTimeout | publish | mismatch | unused9 | unusedAB
  | unusedCF => rfl
  | startCount _ hc => rw [countUp_cnt_of_start hinv hfits hst hc]; simp [hst]
  | settleCount _ hc => rw [countUp_cnt_of_settle hinv hfits hst hc]; simp [hst]
  | respCount _ _ hc | calCount _ _ hc | fstartCount _ _ hc | bithighCount _ _ hc =>
    rw [countUp_cnt_of_polling hinv hfits (by simp [polling, hst]) hc]; simp [hst]
  | startEnd => rw [goto_st, afterStart_code]; split <;> simp [hst]
  | bithighExit => rw [recordBit_st]; split <;> simp [hst]
  | accept | settleEnd | respExit | calExit | fstartExit | bitriseExit | bitriseStay => simp [hst]

/-- `thr` after a state rule: CAL's exit writes the threshold whole, acceptance clears it, and no other rule
writes it. -/
theorem RuleCase.thr_eq (h : RuleCase (current s) s t) (hinv : Inv s) (hfits : s.build.fits) :
    t.thr = if s.st = 4 ∧ t.st = 5 then s.cnt * 50 / 80 else if s.st = 0 ∧ t.st = 1 then 0 else s.thr := by
  have hst := current_code s
  generalize current s = i at h hst
  cases h with
  | calExit => simp [hst, keepCW_threshold hfits (hinv.cnt_polling (.inr (.inl hst)))]
  | unused9 | unusedAB | unusedCF => simp
  | idle | busBusy | accept | startEnd | startCount | settleEnd | settleCount | respExit | respTimeout | respCount
  | calTimeout | calCount | fstartExit | fstartTimeout | fstartCount | bitriseExit | bitriseStay | bithighExit
  | bithighTimeout | bithighCount | publish | mismatch => simp [hst]

/-- Settles O31: the counts are those of the cycle's state rule, and their bounds are those of the invariant, which the
step keeps. -/
theorem countersNeverWrap : Obligations.CountersNeverWrap := by
  intro s t hinv hfits h
  have hinv' : Inv t := everyStepKeepsTheInvariant s t hfits hinv h
  have hbuild : t.build = s.build := step_build h
  refine ⟨fun hr => ?_, fun hr => ?_, fun hst => ?_, fun hst => ?_, fun hst => ?_⟩
  · rw [step_of_rst hr] at h
    injection h with h
    subst h
    exact ⟨rfl, rfl⟩
  · obtain ⟨u, hrule, rfl⟩ := step_rule hr h
    change RuleCase (current (beginCycle s)) (beginCycle s) u at hrule
    exact ⟨hrule.cnt_eq (beginCycle_inv hinv) hfits, hrule.thr_eq (beginCycle_inv hinv) hfits⟩
  · exact Nat.le_sub_one_of_lt (hbuild ▸ hinv'.cnt_start hst)
  · exact Nat.le_sub_one_of_lt (hbuild ▸ hinv'.cnt_settle hst)
  · exact hbuild ▸ hinv'.cnt_polling hst

end Sys2Proof.Machine
end

section
/-! PROOF. Reset (70_reset_and_hazards.md): a cycle of it, and the window after it in which S is its own value. -/
namespace Sys2Proof.Machine

/-- Settles O20: a cycle of reset is `resetAll` whatever `st` and `start` are, and its IDLE releases the line that START
drove until then. -/
theorem resetOverridesEveryStateRule : Obligations.ResetOverridesEveryStateRule := fun s hr =>
  ⟨resetAll s, step_of_rst hr, rfl, rfl, rfl, rfl, rfl, rfl, rfl, rfl, rfl, rfl, rfl, rfl, rfl, rfl, rfl,
    (startPulseHoldsTheLineLow s).1, rfl⟩

/-- Until the line has passed every stage, S is what the stages held at first. -/
theorem sample_after_of_replicate {s : State} {k : Nat} {l : Level}
    (hsync : s.sync = List.replicate s.build.syncStages l) (hk : k < s.build.syncStages)
    (hobs : observes (List.replicate k none) s = true) : sample (after k s) = l := by
  have hlast : s.build.syncStages - 1 = s.build.syncStages - 1 - k + k := by omega
  refine sample_of_last (by rw [after_build]; omega) ?_
  rw [after_build, hlast, after_sync_add (by omega) hobs, hsync, List.getElem?_replicate_of_lt (by omega)]

/-- Settles O33: the stages all held HIGH, and on a HIGH sample the request rule accepts. -/
theorem sampleIsHighInTheWindowAfterReset : Obligations.SampleIsHighInTheWindowAfterReset := by
  intro s k hsync hk hobs
  have hhigh : sample (after k s) = .high := sample_after_of_replicate hsync hk hobs
  exact ⟨_, run_after k s, hhigh, (requestIsCheckedAgainstTheBus _).2.2 hhigh⟩

end Sys2Proof.Machine
end

section
/-!
PROOF. The protocol before the first bit: the response, the reference pulse and the frame start, each a bounded wait that
ends in time (40_handshake.md R106, 41_calibration.md R130, 42_frame_decoder.md R150).
-/
namespace Sys2Proof.Machine

variable {s t : State} {n d m k : Nat}

/-- The samples of a wait that takes `n` stay samples and then the other level. -/
def waitSamples (n : Nat) (stay other : Level) : List (Option Level) := held n stay ++ [some other]

theorem length_held (n : Nat) (l : Level) : (held n l).length = n := List.length_replicate

theorem length_waitSamples (n : Nat) (stay other : Level) : (waitSamples n stay other).length = n + 1 := by
  rw [waitSamples, List.length_append, length_held, List.length_singleton]

/-- The response comes after at most TIMEOUT polls: RESP goes on to CAL. -/
theorem after_response (hst : s.st = 3) (hcnt : s.cnt = 0) (hfits : s.build.fits) (hn : n ≤ s.build.timeout)
    (hobs : observes (waitSamples n .high .low) s = true) : Entered .cal s (after (n + 1) s) := by
  obtain ⟨h, hend⟩ := resp_isBoundedWait.exits hst hfits hcnt hn (by decide) hobs
  rw [hend]
  exact { h with st := rfl, cnt := rfl, done := rfl }

/-- The reference pulse is counted to `n`: CAL goes on to FSTART with the threshold of that count. -/
theorem after_reference (hst : s.st = 4) (hcnt : s.cnt = 0) (hfits : s.build.fits) (hn : n ≤ s.build.timeout)
    (hobs : observes (waitSamples n .low .high) s = true) :
    Entered .fstart (writeThr (threshold n) s) (after (n + 1) s) := by
  obtain ⟨h, hend⟩ := cal_isBoundedWait.exits hst hfits hcnt hn (by decide) hobs
  rw [hend]
  exact { h with
    st := rfl
    thr := congrArg₂ (fun b c => keepCW b (threshold c)) h.build h.cnt
    cnt := rfl
    done := rfl }

/-- The first bit starts after at most TIMEOUT polls: FSTART goes on to BITRISE. -/
theorem after_frameStart (hst : s.st = 5) (hcnt : s.cnt = 0) (hfits : s.build.fits) (hn : n ≤ s.build.timeout)
    (hobs : observes (waitSamples n .high .low) s = true) : Entered .bitrise s (after (n + 1) s) := by
  obtain ⟨h, hend⟩ := fstart_isBoundedWait.exits hst hfits hcnt hn (by decide) hobs
  rw [hend]
  exact { h with st := rfl, cnt := rfl, done := rfl }

/-- A phase entered with another threshold. -/
theorem Entered.writeThr {p : Phase} (h : Entered p s t) (v : Nat) :
    Entered p (Machine.writeThr v s) (Machine.writeThr v t) :=
  { h with thr := congrArg (keepCW · v) h.build }

/-- From RESP to the first bit: the three waits one after the other leave the threshold and nothing else. -/
theorem after_preamble (hst : s.st = 3) (hcnt : s.cnt = 0) (hfits : s.build.fits) (hd : d ≤ s.build.timeout)
    (hm : m ≤ s.build.timeout) (hk : k ≤ s.build.timeout)
    (hobs : observes (waitSamples d .high .low ++ waitSamples m .low .high ++ waitSamples k .high .low) s = true) :
    Entered .bitrise (writeThr (threshold m) s) (after (d + 1 + (m + 1) + (k + 1)) s) := by
  rw [observes_append, observes_append, List.length_append, length_waitSamples, length_waitSamples] at hobs
  obtain ⟨⟨hresp, hcal⟩, hfstart⟩ := hobs
  rw [after_add (d + 1)] at hfstart
  rw [after_add (d + 1 + (m + 1)), after_add (d + 1)]
  have h1 := after_response hst hcnt hfits hd hresp
  have h2 := after_reference h1.st h1.cnt (h1.build.symm ▸ hfits) (h1.build.symm ▸ hm) hcal
  have h3 := after_frameStart h2.st h2.cnt (h2.build.trans h1.build ▸ hfits) (h2.build.trans h1.build ▸ hk) hfstart
  exact (h1.writeThr (threshold m)).trans (h2.trans h3)

end Sys2Proof.Machine
end

section
/-! PROOF. The bits of a frame, one after the other, from the first falling edge to VALIDATE (42_frame_decoder.md R154). -/
namespace Sys2Proof.Machine

variable {s t u : State} {n : Nat}

/-- The samples of a list of bits as the decoder takes them: after the falling edge that starts the first bit, each bit
with the falling edge that ends it. -/
def decoderSamples : List BitPulse → List (Option Level)
  | [] => []
  | p :: ps => held (p.low - 1) .low ++ held p.high .high ++ [some .low] ++ decoderSamples ps

/-- The line's samples, from the first falling edge to the closing one, are that edge and what the decoder takes. -/
theorem bitSamples_append_low (b : Build) {ps : List BitPulse} (h : ∀ p ∈ ps, p.readable b) :
    bitSamples ps ++ [some .low] = some .low :: decoderSamples ps := by
  induction ps with
  | nil => rfl
  | cons p ps ih =>
    obtain ⟨⟨hlow, -, -⟩, hps⟩ := List.forall_mem_cons.1 h
    obtain ⟨gap, hgap⟩ : ∃ gap, p.low = gap + 1 := ⟨p.low - 1, by omega⟩
    rw [bitSamples, List.append_assoc, ih hps, decoderSamples, hgap]
    simp [held, List.replicate_succ]

theorem length_decoderSamples (b : Build) {ps : List BitPulse} (h : ∀ p ∈ ps, p.readable b) :
    (decoderSamples ps).length = pulseCycles ps := by
  induction ps with
  | nil => rfl
  | cons p ps ih =>
    obtain ⟨⟨hlow, -, -⟩, hps⟩ := List.forall_mem_cons.1 h
    simp only [decoderSamples, pulseCycles, List.length_append, length_held, List.length_singleton, ih hps]
    omega

/-- The decoder waits for `n` more bits: in BITRISE before the last of them, and in VALIDATE with none left. -/
structure BitsLeft (n : Nat) (s : State) : Prop where
  le : n ≤ 40
  st : s.st = if n = 0 then 8 else 6
  idx : s.idx.toNat = min (40 - n) 39

/-- A bit is one bit less to wait for. -/
theorem BitReceived.bitsLeft {bit : Bool} (h : BitReceived s bit t) (hleft : BitsLeft (n + 1) s) : BitsLeft n t := by
  obtain ⟨hle, -, hidx⟩ := hleft
  obtain rfl | hn := Nat.eq_zero_or_pos n
  · have h39 : s.idx = 39 := BitVec.eq_of_toNat_eq hidx
    exact ⟨by omega, by rw [h.st, if_pos h39, if_pos rfl], by rw [h.idx, if_pos h39, h39]; rfl⟩
  · have hne : s.idx ≠ 39 := fun e => by simp [e] at hidx; omega
    have hsucc := (idx_succ_toNat (by omega) hne).1
    exact ⟨by omega, by rw [h.st, if_neg hne, if_neg (by omega)], by rw [h.idx, if_neg hne, hsucc]; omega⟩

/-- `t` is `s` after the bits `bits` are recorded, in the order of reception. -/
structure BitsReceived (s : State) (bits : List Bool) (t : State) : Prop extends SameResults s t where
  frame : t.frame = shiftInAll s.frame bits
  thr : t.thr = s.thr

theorem SameResults.trans (h : SameResults s t) (h' : SameResults t u) : SameResults s u where
  okQ := h'.okQ.trans h.okQ
  errQ := h'.errQ.trans h.errQ
  ebQ := h'.ebQ.trans h.ebQ
  ebitQ := h'.ebitQ.trans h.ebitQ
  humQ := h'.humQ.trans h.humQ
  tempQ := h'.tempQ.trans h.tempQ
  rdValidQ := h'.rdValidQ.trans h.rdValidQ

/-- A bit is recorded before the bits after it. -/
theorem BitReceived.cons {bit : Bool} {bits : List Bool} (h : BitReceived s bit t) (h' : BitsReceived t bits u) :
    BitsReceived s (bit :: bits) u :=
  { h.toSameResults.trans h'.toSameResults with
    frame := by rw [h'.frame, h.frame, shiftIn_eq_shiftLeft_or]; rfl
    thr := h'.thr.trans h.thr }

/-- The bits are those of the state in which the phase of the first one is entered. -/
theorem BitsReceived.of_entered {p : Phase} {bits : List Bool} (h' : BitsReceived t bits u) (h : Entered p s t) :
    BitsReceived s bits u :=
  { SameResults.trans { h with } h'.toSameResults with
    frame := h'.frame.trans (congrArg (shiftInAll · bits) h.frame)
    thr := h'.thr.trans h.thr }

/-- Readable pulses, as many as the decoder waits for, are recorded bit by bit, and it goes on to VALIDATE. -/
theorem after_bits {ps : List BitPulse} (hleft : BitsLeft ps.length s) (hfits : s.build.fits)
    (hps : ∀ p ∈ ps, p.readable s.build) (hobs : observes (decoderSamples ps) s = true) :
    BitsReceived s (ps.map fun p => bitOf (p.high - 1) s.thr) (after (pulseCycles ps) s) ∧
      BitsLeft 0 (after (pulseCycles ps) s) := by
  induction ps generalizing s with
  | nil => exact ⟨⟨(SameAttempt.refl s).toSameResults, rfl, rfl⟩, hleft⟩
  | cons p ps ih =>
    obtain ⟨⟨hlow, hhigh, hmax⟩, hps⟩ := List.forall_mem_cons.1 hps
    obtain ⟨m, hm⟩ : ∃ m, p.high = m + 1 := ⟨p.high - 1, by omega⟩
    have hcycles : p.low + p.high = p.low - 1 + 1 + (m + 1) := by omega
    have hlen : (held (p.low - 1) .low ++ held p.high .high ++ [some Level.low]).length = p.low + p.high := by
      simp only [List.length_append, length_held, List.length_singleton]; omega
    rw [decoderSamples, observes_append, hlen] at hobs
    obtain ⟨hbit, hrest⟩ := hobs
    have h : BitReceived s (bitOf (p.high - 1) s.thr) (after (p.low + p.high) s) := by
      rw [hm] at hbit
      rw [hcycles, hm]
      exact after_bit hleft.st hfits (by omega) hbit
    have hnext := ih (h.bitsLeft hleft) (h.build.symm ▸ hfits) (h.build.symm ▸ hps) hrest
    rw [h.thr] at hnext
    rw [pulseCycles, after_add]
    exact ⟨h.cons hnext.1, hnext.2⟩

end Sys2Proof.Machine
end

section
/-! PROOF. A read attempt to its end (70_reset_and_hazards.md R258): from RESP on, and from an accepted request on. -/
namespace Sys2Proof.Machine

variable {s t : State}

/-- A frame that passes the checksum ends the attempt with code 0 and its Reading (43_validator.md R180). -/
theorem cycleState_validate_of_ok (hst : s.st = 8) (hr : (inputs s).rst = false) (hok : frameOk s.frame = true) :
    cycleState s = endCycle s (finish 0 0 0 (publish (beginCycle s))) := by
  rw [cycleState_of_st hr hst]
  exact congrArg (endCycle s) (if_pos hok)

/-- A frame that fails the checksum ends the attempt with code 7 (43_validator.md R180). -/
theorem cycleState_validate_of_not_ok (hst : s.st = 8) (hr : (inputs s).rst = false) (hok : frameOk s.frame = false) :
    cycleState s = endCycle s (finish 7 0 0 (beginCycle s)) := by
  rw [cycleState_of_st hr hst]
  exact congrArg (endCycle s) (if_neg (by rw [beginCycle_frame, hok]; decide))

/-- The samples of an attempt from RESP's first poll on, cut where the phases end. -/
theorem attemptSamples_eq (b : Build) {ps : List BitPulse} (hps : ∀ p ∈ ps, p.readable b) (d m k : Nat) :
    held d .high ++ held (m + 1) .low ++ held (k + 1) .high ++ bitSamples ps ++ [some .low, none] =
      waitSamples d .high .low ++ waitSamples m .low .high ++ waitSamples k .high .low ++ decoderSamples ps ++
        [none] := by
  have hclose : bitSamples ps ++ [some Level.low, none] = some .low :: decoderSamples ps ++ [none] := by
    rw [← bitSamples_append_low b hps, List.append_assoc]; rfl
  rw [List.append_assoc, hclose]
  simp [waitSamples, held, List.replicate_succ]

/-- From RESP to VALIDATE: the three waits, then every bit, against the threshold of the reference pulse. -/
theorem after_response_and_bits {d m k : Nat} {ps : List BitPulse} (hfits : s.build.fits) (hst : s.st = 3)
    (hcnt : s.cnt = 0) (hne : ps ≠ []) (hlen : s.idx.toNat + ps.length = 40) (hd : d ≤ s.build.timeout)
    (hm : m ≤ s.build.timeout) (hk : k ≤ s.build.timeout) (hps : ∀ p ∈ ps, p.readable s.build)
    (hobs : observes (waitSamples d .high .low ++ waitSamples m .low .high ++ waitSamples k .high .low ++
      decoderSamples ps) s = true) :
    BitsReceived (writeThr (threshold m) s) (ps.map fun p => bitOf (p.high - 1) (m * 50 / 80))
        (after (d + 1 + (m + 1) + (k + 1) + pulseCycles ps) s) ∧
      BitsLeft 0 (after (d + 1 + (m + 1) + (k + 1) + pulseCycles ps) s) := by
  rw [observes_append] at hobs
  simp only [List.length_append, length_waitSamples] at hobs
  obtain ⟨hpre, hbits⟩ := hobs
  have hin := after_preamble hst hcnt hfits hd hm hk hpre
  rw [after_add]
  generalize after (d + 1 + (m + 1) + (k + 1)) s = u at hin hbits ⊢
  have hidx : u.idx = s.idx := hin.idx
  have hbuild : u.build = s.build := hin.build
  have hthr : u.thr = m * 50 / 80 := hin.thr.trans (keepCW_threshold hfits hm)
  have hpos : ps.length ≠ 0 := mt List.length_eq_zero_iff.1 hne
  have hleft : BitsLeft ps.length u := ⟨by omega, by rw [hin.st, if_neg hpos]; rfl, by rw [hidx]; omega⟩
  obtain ⟨hrec, hdone⟩ := after_bits hleft (hbuild ▸ hfits) (hbuild ▸ hps) hbits
  rw [hthr] at hrec
  exact ⟨hrec.of_entered hin, hdone⟩

/-- Settles O40: the waits and the bits up to VALIDATE, and its cycle. -/
theorem readFromTheResponseOn : Obligations.ReadFromTheResponseOn := by
  intro s d N h ps frame hfits hst hcnt hne hlen hd hN hNmax hh hhmax hps hframe hobs
  obtain ⟨m, rfl⟩ : ∃ m, N = m + 1 := ⟨N - 1, by omega⟩
  obtain ⟨k, rfl⟩ : ∃ k, h = k + 1 := ⟨h - 1, by omega⟩
  rw [attemptSamples_eq s.build hps, observes_append] at hobs
  simp only [List.length_append, length_waitSamples, length_decoderSamples s.build hps] at hobs
  obtain ⟨hread, hlast⟩ := hobs
  obtain ⟨hrec, hdone⟩ := after_response_and_bits hfits hst hcnt hne hlen hd (by omega) (by omega) hps hread
  have hcycles : d + (m + 1) + (k + 1) + pulseCycles ps + 2 =
      d + 1 + (m + 1) + (k + 1) + pulseCycles ps + 1 := by omega
  refine ⟨_, run_after _ s, ?_⟩
  rw [hcycles, after_succ_last]
  generalize after (d + 1 + (m + 1) + (k + 1) + pulseCycles ps) s = v at hrec hdone hlast ⊢
  have hr : (inputs v).rst = false := ((observes_cons _ _ _).1 hlast).1
  have hv : v.frame = frame := hrec.frame.trans hframe.symm
  have hthr : v.thr = m * 50 / 80 := hrec.thr.trans (keepCW_threshold hfits (by omega))
  have h39 : v.idx = 39 := BitVec.eq_of_toNat_eq hdone.idx
  cases hok : frameOk v.frame with
  | true =>
    rw [cycleState_validate_of_ok hdone.st hr hok, ← hv]
    exact ⟨rfl, rfl, rfl, hthr, h39, fun _ => ⟨rfl, rfl, rfl, rfl, rfl⟩,
      fun h => absurd (hok.symm.trans h) (by decide)⟩
  | false =>
    rw [cycleState_validate_of_not_ok hdone.st hr hok, ← hv]
    exact ⟨rfl, rfl, rfl, hthr, h39, fun h => absurd (hok.symm.trans h) (by decide),
      fun _ => ⟨rfl, rfl, hrec.rdValidQ, hrec.humQ, hrec.tempQ⟩⟩

/-- A run goes on from the state after its first cycles. -/
theorem run_add (j k : Nat) (s : State) : run (j + k) s = run k (after j s) := by
  rw [run_after, run_after, after_add]

/-- A request in IDLE is accepted on a HIGH sample; the cycles from there to RESP need only be without reset. -/
theorem acceptedRun_of_observes (hfits : s.build.fits) (hst : s.st = 0) (hstart : (inputs s).start = true)
    (hobs : observes (some .high :: List.replicate (s.build.startHold + s.build.releaseSettle) none) s = true) :
    AcceptedRun s := by
  obtain ⟨hr, hsample, hrest⟩ := (observes_cons _ _ _).1 hobs
  exact ⟨hfits, hst, hstart, hsample _ rfl, (observes_none_succ _ s).2 ⟨hr, hrest⟩⟩

/-- Settles O41: the handshake from acceptance to RESP, and the read from there on. -/
theorem wholeReadAttempt : Obligations.WholeReadAttempt := by
  intro s d N h ps frame hfits hst hstart hlen hd hN hNmax hh hhmax hps hframe hobs
  have hcut : observes (some .high :: List.replicate (s.build.startHold + s.build.releaseSettle) none ++
      (held d .high ++ held N .low ++ held h .high ++ bitSamples ps ++ [some .low, none])) s = true := by
    simpa only [List.append_assoc, List.cons_append, List.nil_append] using hobs
  have hlead : s.build.startHold + s.build.releaseSettle + 1 = 1 + s.build.startHold + s.build.releaseSettle := by
    omega
  rw [observes_append, List.length_cons, List.length_replicate, hlead] at hcut
  obtain ⟨hask, hread⟩ := hcut
  have haccept : AcceptedRun s := acceptedRun_of_observes hfits hst hstart hask
  have hresp := haccept.resp_entered
  have hcycles : 1 + s.build.startHold + s.build.releaseSettle + (d + 1) + N + h + pulseCycles ps + 1 =
      1 + s.build.startHold + s.build.releaseSettle + (d + N + h + pulseCycles ps + 2) := by omega
  rw [haccept.cycleState_eq] at hresp
  rw [hcycles, run_add]
  generalize after (1 + s.build.startHold + s.build.releaseSettle) s = u at hresp hread ⊢
  have hbuild : u.build = s.build := hresp.build
  have hidx : u.idx = 0 := hresp.idx
  have hzero : u.frame = 0 := hresp.frame
  have hne : ps ≠ [] := List.ne_nil_of_length_pos (by omega)
  obtain ⟨t, hrun, hst', hdone, hframe', hthr, -, hok, hbad⟩ :=
    readFromTheResponseOn u d N h ps frame (hbuild ▸ hfits) hresp.st hresp.cnt hne (by rw [hidx, hlen]; rfl)
      (hbuild ▸ hd) hN (hbuild ▸ hNmax) hh (hbuild ▸ hhmax) (hbuild ▸ hps) (hzero ▸ hframe) hread
  refine ⟨t, hrun, hst', hdone, hframe', hthr, hok, fun h => ?_⟩
  obtain ⟨hokQ, herr, hvalid, hhum, htemp⟩ := hbad h
  exact ⟨hokQ, herr, hvalid.trans hresp.rdValidQ, hhum.trans hresp.humQ, htemp.trans hresp.tempQ⟩

end Sys2Proof.Machine
end

section
/-! PROOF. No trap (30_encoding.md R76): every cycle answers a next state, of the same build. -/
namespace Sys2Proof.Machine

/-- Settles O18: the answer is `cycleState`, and neither the reset nor a state rule writes `build`. -/
theorem nothingTrapsAndParametersStay : Obligations.NothingTrapsAndParametersStay := fun s =>
  ⟨cycleState s, step_next s, cycleState_build s⟩

end Sys2Proof.Machine
end
